-- ==== Sys2Proof/Word.lean ====
section
/-! DEFINITION. The values of the spec's notation (00_scope.md R10, R16): the byte, the 16-bit word,
time and text. -/

namespace Sys2Proof

/-- A byte: an unsigned 8-bit value (R10). -/
abbrev Byte := BitVec 8

/-- A word16: an unsigned 16-bit value (R10). -/
abbrev Word16 := BitVec 16

/-- A count of ticks, unbounded (R16). -/
abbrev Time := Nat

/-- A text tag such as a unit, as the sequence of its character codes (log 34). -/
abbrev Text := List Byte

end Sys2Proof
end

