-- ==== Sys2Proof/Config.lean ====
section
/-! DEFINITION. The fixed constants of the block (10_state.md R20, R21, R23), the names of the
telemetry fields (30_encoding.md R109), and the configuration the host writes before a run
(10_state.md R22, R24 to R30). -/

namespace Sys2Proof

/-! ### Fixed constants -/

/-- The start-of-frame marker (R20). -/
def STX : Byte := 0x02#8
/-- The end-of-frame marker (R20). -/
def ETX : Byte := 0x03#8
/-- The kind byte of a request (R20). -/
def ENQ : Byte := 0x05#8
/-- The kind byte of a reply (R20). -/
def ACK : Byte := 0x06#8
/-- The command byte of a telemetry request and reply (R21). -/
def CMD_TELEMETRY : Byte := 0x60#8
/-- The subcommand byte of a telemetry request and reply (R21). -/
def SUB_TELEMETRY : Byte := 0x01#8
/-- The command bytes given to the encoder for a telemetry request (R21). -/
def CMD_BYTES_TELEMETRY : List Byte := [CMD_TELEMETRY, SUB_TELEMETRY]
/-- Bytes of telemetry DATA (R23). -/
def TELEMETRY_DATA_LEN : Nat := 119
/-- The length byte of a telemetry reply (R23). -/
def TELEMETRY_LENGTH : Nat := 121
/-- Bytes of a whole telemetry reply (R23). -/
def TELEMETRY_FRAME_LEN : Nat := 128
/-- Bytes of the longest frame (R23). -/
def MAX_FRAME : Nat := 262
/-- Bytes before PAYLOAD (R23). -/
def HEADER_LEN : Nat := 4
/-- Bytes after PAYLOAD (R23). -/
def TRAILER_LEN : Nat := 3

/-! ### Field names (R109) -/

/-- The two ASCII fields. -/
inductive AsciiField where
  | partNumber | serialNumber
deriving DecidableEq, Repr

/-- The six firmware revision bytes. -/
inductive U8Field where
  | fw1Major | fw1Minor | fw2Major | fw2Minor | fw3Major | fw3Minor
deriving DecidableEq, Repr

/-- The 26 two-byte measurements. -/
inductive U16Field where
  | ac1V | ac1I | ac1P | ac1F1 | ac1F2 | ac1V2
  | ac2V | ac2I | ac2P | ac2F1 | ac2F2 | ac2V2
  | ac3V | ac3I | ac3P | ac3F1 | ac3F2 | ac3V2
  | dc1V | dc1I | dc1P | dc2V | dc2I | dc2P
  | acPower | temperature
deriving DecidableEq, Repr

/-- The three four-byte measurements. -/
inductive U32Field where
  | dayEnergy | feedInTime | totalEnergy
deriving DecidableEq, Repr

/-- The two fields of undetermined meaning. -/
inductive Raw32Field where
  | unknown1 | unknown2
deriving DecidableEq, Repr

/-- A name of the telemetry record, by decode kind (R109). -/
inductive FieldName where
  | ascii (f : AsciiField)
  | u8 (f : U8Field)
  | u16 (f : U16Field)
  | u32 (f : U32Field)
  | raw32 (f : Raw32Field)
deriving DecidableEq, Repr

/-- A name of class `meas`: the names the scale table SCALE has an entry for (R110). -/
inductive MeasField where
  | u16 (f : U16Field)
  | u32 (f : U32Field)
deriving DecidableEq, Repr

/-! ### Configuration -/

/-- The five parameters of the CRC-16, constants of the hardware (R22). -/
structure CrcParams where
  poly : Word16
  init : Word16
  refin : Bool
  refout : Bool
  xorout : Word16
deriving DecidableEq, Repr

/-- An interval setting: `sec n` is SEC(n) under the TICKS_PER_SECOND in force, `ticks n` is n time
ticks (R25, R26, R51; log 19). -/
inductive Interval where
  | sec (n : Nat)
  | ticks (n : Time)
deriving DecidableEq, Repr

/-- One entry of SCALE: a power-of-ten exponent and a unit tag (R110). -/
structure Scale where
  exp : Int
  unit : Text
deriving DecidableEq, Repr

/-- The configuration values other than the device table (R22, R25, R26, R28 to R30). `scale` holds
the entries the host has written over the table of R110; `bufCap = none` is unbounded. -/
structure Config where
  crc : CrcParams
  ticksPerSecond : Nat
  sampleInterval : Interval
  logInterval : Interval
  reporterPresent : Bool
  scale : List (MeasField × Scale)
  sampleFields : List FieldName
  bufCap : Option Nat
  readTimeout : Time
deriving DecidableEq, Repr

end Sys2Proof
end

