-- ==== Sys2Proof/Syntax.lean ====
section
/-! DEFINITION. The operations and frames of spec/opcode_table.json as one type, `Instr`: one
constructor per row, with the operands the row's rule gives it. -/

namespace Sys2Proof

/-- The value of a record entry (43_telemetry_codec.md R212). -/
inductive FieldValue where
  | str (bytes : List Byte)
  | plain (raw : Nat)
  | meas (raw : Nat) (exp : Int) (unit : Text)
  | raw (raw : Nat)
deriving DecidableEq, Repr

/-- The TelemetryRecord: an ordered list of (name, value) pairs (R212). -/
abbrev TelemetryRecord := List (FieldName × FieldValue)

/-- The header FV returns with a valid result (42_frame_validator.md R188). -/
structure Header where
  kind : Byte
  deviceId : Byte
  length : Nat
  payloadOff : Nat
  payloadEnd : Nat
  dataOff : Nat
  dataLen : Nat
  command : Option Byte
  subcommand : Option Byte
deriving DecidableEq, Repr

/-- The rows of spec/opcode_table.json.

The five frame rows carry what the mask leaves free: the deviceId, the PAYLOAD or the DATA (the
length byte is its length), the transmitted CRC, and the byte at the terminator's place (kept,
because FV and not the row's mask tests it: 30_encoding.md R116). The operation rows carry the
operands of their rules. -/
inductive Instr where
  /-- FRAME.REQ.TELEMETRY (R227). -/
  | frameReqTelemetry (id : Byte) (crc : Word16) (term : Byte)
  /-- FRAME.REQ (R186). -/
  | frameReq (id : Byte) (payload : List Byte) (crc : Word16) (term : Byte)
  /-- FRAME.REPLY.TELEMETRY (R200). -/
  | frameReplyTelemetry (id : Byte) (data : List Byte) (crc : Word16) (term : Byte)
  /-- FRAME.REPLY.BADLEN (R203). -/
  | frameReplyBadlen (id : Byte) (data : List Byte) (crc : Word16) (term : Byte)
  /-- FRAME.REPLY.OTHER (R202). -/
  | frameReplyOther (id : Byte) (payload : List Byte) (crc : Word16) (term : Byte)
  /-- RESET (R340). -/
  | reset
  /-- RUN (R280). -/
  | run
  /-- SHUTDOWN (R286). -/
  | shutdown
  /-- FATAL (R288). -/
  | fatal
  /-- CRC.RESET (R131). -/
  | crcReset
  /-- CRC.BYTE (R132). -/
  | crcByte (b : Byte)
  /-- CRC.BLOCK (R133). -/
  | crcBlock (bytes : List Byte)
  /-- CRC.VALUE (R134). -/
  | crcValue
  /-- CRC.CHECK (R135). -/
  | crcCheck (c : List Byte) (len : Nat)
  /-- FR.START (R152). -/
  | frStart
  /-- FR.BYTE in phase HUNT (R153). -/
  | frByteHunt (b : Byte)
  /-- FR.BYTE in phase KIND (R154). -/
  | frByteKind (b : Byte)
  /-- FR.BYTE in phase HDR (R155). -/
  | frByteHdr (b : Byte)
  /-- FR.BYTE in phase BODY, not the last byte (R156). -/
  | frByteBody (b : Byte)
  /-- FR.BYTE in phase BODY, the last byte (R159). -/
  | frByteLast (b : Byte)
  /-- FR.TIMEOUT (R157). -/
  | frTimeout
  /-- FR.FAULT (R158). -/
  | frFault
  /-- FV.VALIDATE (R180). -/
  | fvValidate (c : List Byte)
  /-- FV.HEADER (R188). -/
  | fvHeader (c : List Byte)
  /-- TC.DECODE (R200). -/
  | tcDecode (c : List Byte) (hdr : Header)
  /-- TC.UNPACK.ASCII (R206). -/
  | tcUnpackAscii (bytes : List Byte)
  /-- TC.UNPACK.U8 (R207). -/
  | tcUnpackU8 (b : Byte)
  /-- TC.UNPACK.U16 (R208). -/
  | tcUnpackU16 (name : U16Field) (b0 b1 : Byte)
  /-- TC.UNPACK.U32 (R209). -/
  | tcUnpackU32 (name : U32Field) (b0 b1 b2 b3 : Byte)
  /-- TC.UNPACK.RAW32 (R210). -/
  | tcUnpackRaw32 (b0 b1 b2 b3 : Byte)
  /-- TC.UNPACK.PAD (R211). -/
  | tcUnpackPad (bytes : List Byte)
  /-- TC.SCALE (R213). -/
  | tcScale (raw : Nat) (exp : Int) (unit : Text)
  /-- TC.ENCODE (R225). -/
  | tcEncode (id : Byte) (cmd : List Byte)
  /-- PS.TICK (R240). -/
  | psTick (t : Time)
  /-- PS.NOTE_TRAFFIC (R244). -/
  | psNoteTraffic (t : Time)
  /-- SA.ACCEPT (R260). -/
  | saAccept (i : Nat) (record : TelemetryRecord) (t : Time)
  /-- SA.FLUSH (R264). -/
  | saFlush (t : Time)
  /-- SA.FINAL_FLUSH (R267). -/
  | saFinalFlush (t : Time)
deriving DecidableEq, Repr

end Sys2Proof
end

