-- ==== Sys2Proof/Machine/Operands.lean ====
section
/-! DEFINITION. How operands are read from byte sequences: slices and the byte orders (00_scope.md
R11, 20_memory.md R67, 30_encoding.md R111), the two memory primitives (00_scope.md R13), the offsets
inside a frame (20_memory.md R71) and the header (42_frame_validator.md R188). -/

namespace Sys2Proof.Machine

/-! ### Byte sequences -/

/-- `s[a ..< b]` (R11); every use has `a ≤ b ≤ len s`. -/
def slice (s : List Byte) (a b : Nat) : List Byte := (s.take b).drop a

/-- `s[i]` (R11). Every use stands behind a length test that makes `i` an index of `s`
(20_memory.md R74), so the 0 past the end is never read. -/
def byteAt (s : List Byte) (i : Nat) : Byte := s.getD i 0#8

/-- The big-endian value of a sequence (R11, R67). -/
def be (s : List Byte) : Nat := s.foldl (fun acc b => 256 * acc + b.toNat) 0

/-- `le16(lo, hi) = lo + 256 * hi` as a word16 (R11, R111). -/
def le16 (lo hi : Byte) : Word16 := hi ++ lo

/-- Bits 7..0 of a word16, the CRC byte at the lower offset (R96). -/
def loByte (v : Word16) : Byte := v.extractLsb' 0 8

/-- Bits 15..8 of a word16, the CRC byte at the higher offset (R96). -/
def hiByte (v : Word16) : Byte := v.extractLsb' 8 8

/-! ### The buffers CB and TB -/

/-- `MemRead(off, n)`: the n bytes at byte offset `off`, defined when `off + n ≤ len` (R13). -/
def memRead (buf : List Byte) (off n : Nat) : List Byte := slice buf off (off + n)

/-- `MemWrite(off, n, v)` with `n = len v`: the bytes of `v` at offset `off` of a buffer (R13). The
two builders, FR for CB and TC.ENCODE for TB, only write at `off = len`. -/
def memWrite (buf : List Byte) (off : Nat) (v : List Byte) : List Byte :=
  buf.take off ++ v ++ buf.drop (off + v.length)

/-- Whether a buffer keeps within CB and TB's size (20_memory.md R60, R64). -/
def bufferWf (buf : List Byte) : Bool := decide (buf.length ≤ MAX_FRAME)

/-! ### The fields of a frame (20_memory.md R71) -/

/-- `L`, the value of the length byte at offset 3 (R94). -/
def lengthByte (c : List Byte) : Nat := (byteAt c 3).toNat

/-- The CRC range of a frame, offsets 1 to `3 + L` (R73). -/
def crcRange (c : List Byte) (len : Nat) : List Byte := slice c 1 (4 + len)

/-- The transmitted CRC, `le16(c[4 + L], c[5 + L])` (R73). -/
def transmittedCrc (c : List Byte) (len : Nat) : Word16 :=
  le16 (byteAt c (4 + len)) (byteAt c (5 + len))

/-- PAYLOAD, `c[4 ..< 4 + L]` (R188). -/
def payloadOf (c : List Byte) : List Byte := slice c 4 (4 + lengthByte c)

/-- DATA, `c[6 ..< 4 + L]` (R188). -/
def dataOf (c : List Byte) : List Byte := slice c 6 (4 + lengthByte c)

/-- A frame's bytes, in the order they are sent (R90). The length byte is the length of `payload`,
which a frame keeps at most 255. -/
def frameBytes (kind id : Byte) (payload : List Byte) (crc : Word16) (term : Byte) : List Byte :=
  [STX, kind, id, BitVec.ofNat 8 payload.length] ++ payload ++ [loByte crc, hiByte crc, term]

/-- FV.HEADER's value, for a sequence that passed check 3 (R188). -/
def header (c : List Byte) : Header :=
  { kind := byteAt c 1
    deviceId := byteAt c 2
    length := lengthByte c
    payloadOff := 4
    payloadEnd := 4 + lengthByte c
    dataOff := 6
    dataLen := lengthByte c - 2
    command := if 2 ≤ lengthByte c then some (byteAt c 4) else none
    subcommand := if 2 ≤ lengthByte c then some (byteAt c 5) else none }

end Sys2Proof.Machine
end

