-- ==== Sys2Proof/Machine/Layout.lean ====
section
/-! DEFINITION. The field descriptor table of the telemetry DATA (30_encoding.md R107 to R109): one
static table that one unpack routine walks. -/

namespace Sys2Proof.Machine

/-- A row of the descriptor table: its field's name, or `none` for reserved bytes, and its width in
bytes. -/
structure Row where
  field : Option FieldName
  width : Nat
deriving DecidableEq, Repr

/-- The decode kinds of R109. -/
inductive Kind where
  | ascii | u8 | u16 | u32 | raw32 | pad
deriving DecidableEq, Repr

/-- The classes of R109: identity or version, measurement, undetermined, nothing. -/
inductive FieldClass where
  | ident | meas | raw | nothing
deriving DecidableEq, Repr

/-- The decode kind of a row. -/
def rowKind (r : Row) : Kind :=
  match r.field with
  | none => .pad
  | some (.ascii _) => .ascii
  | some (.u8 _) => .u8
  | some (.u16 _) => .u16
  | some (.u32 _) => .u32
  | some (.raw32 _) => .raw32

/-- The class of a row. -/
def rowClass (r : Row) : FieldClass :=
  match r.field with
  | none => .nothing
  | some (.ascii _) => .ident
  | some (.u8 _) => .ident
  | some (.u16 _) => .meas
  | some (.u32 _) => .meas
  | some (.raw32 _) => .raw

/-- The rows of the identity and version fields, rows 0 to 11. -/
def identityRows : List Row :=
  [⟨some (.ascii .partNumber), 11⟩, ⟨some (.ascii .serialNumber), 18⟩, ⟨none, 6⟩,
   ⟨some (.u8 .fw1Major), 1⟩, ⟨some (.u8 .fw1Minor), 1⟩, ⟨none, 2⟩,
   ⟨some (.u8 .fw2Major), 1⟩, ⟨some (.u8 .fw2Minor), 1⟩, ⟨none, 2⟩,
   ⟨some (.u8 .fw3Major), 1⟩, ⟨some (.u8 .fw3Minor), 1⟩, ⟨none, 2⟩]

/-- The names of the two-byte fields of rows 12 to 36, in table order: three AC phases of six
fields, two DC strings of three, and the aggregate power. -/
def acDcNames : List U16Field :=
  [.ac1V, .ac1I, .ac1P, .ac1F1, .ac1F2, .ac1V2,
   .ac2V, .ac2I, .ac2P, .ac2F1, .ac2F2, .ac2V2,
   .ac3V, .ac3I, .ac3P, .ac3F1, .ac3F2, .ac3V2,
   .dc1V, .dc1I, .dc1P, .dc2V, .dc2I, .dc2P, .acPower]

/-- The rows 37 to 42. -/
def energyRows : List Row :=
  [⟨some (.raw32 .unknown1), 4⟩, ⟨some (.u32 .dayEnergy), 4⟩, ⟨some (.u32 .feedInTime), 4⟩,
   ⟨some (.u32 .totalEnergy), 4⟩, ⟨some (.raw32 .unknown2), 4⟩, ⟨some (.u16 .temperature), 2⟩]

/-- The descriptor table, 43 rows in DATA order (R109). -/
def descriptorTable : List Row :=
  identityRows ++ acDcNames.map (fun n => ⟨some (.u16 n), 2⟩) ++ energyRows

/-- The offset inside DATA at which each row of a table begins, from `d` on (20_memory.md R72). -/
def rowOffsets (d : Nat) : List Row → List Nat
  | [] => []
  | r :: rs => d :: rowOffsets (d + r.width) rs

/-- The 39 names of the record, in table order (R212). -/
def fieldNames : List FieldName := descriptorTable.filterMap (·.field)

/-- The 29 names of class `meas`, in table order (R262). -/
def measNames : List FieldName :=
  (descriptorTable.filter (fun r => rowClass r == .meas)).filterMap (·.field)

/-- The 26 two-byte names, in table order. -/
def u16Names : List U16Field := acDcNames ++ [.temperature]

/-- The three four-byte measurements, in table order. -/
def u32Names : List U32Field := [.dayEnergy, .feedInTime, .totalEnergy]

/-- Whether a value has the form its name's decode kind gives (R206 to R212): the two ASCII strings
keep their widths 11 and 18. -/
def valueFits : FieldName → FieldValue → Bool
  | .ascii .partNumber, .str bs => bs.length == 11
  | .ascii .serialNumber, .str bs => bs.length == 18
  | .u8 _, .plain _ => true
  | .u16 _, .meas _ _ _ => true
  | .u32 _, .meas _ _ _ => true
  | .raw32 _, .raw _ => true
  | _, _ => false

/-- Whether a record is one TC.DECODE can return in form: the 39 names in table order, each with a
value of its kind (R212). The size of a raw number, its exponent and its unit are not looked at
(DESIGN CHOICE, log 26). -/
def recordComplete (rec : TelemetryRecord) : Bool :=
  decide (rec.map (·.1) = fieldNames) && rec.all (fun e => valueFits e.1 e.2)

end Sys2Proof.Machine
end

