-- ==== Sys2Proof/WellFormed.lean ====
section
/-! DEFINITION. Which terms of `Instr` are operations and frames of the spec: the conditions its rules
put on the operands alone. -/

namespace Sys2Proof

open Sys2Proof.Machine

/-- Whether a PAYLOAD begins with the telemetry command and subcommand (30_encoding.md R99). -/
def beginsTelemetry (payload : List Byte) : Bool := payload.take 2 == CMD_BYTES_TELEMETRY

/-- Whether an operation's operands are in its domain, and whether a frame belongs to its own row of
the frame map (R99, R116: rows are tried in order and the first that fits wins). -/
def Instr.wf : Instr → Bool
  | .frameReqTelemetry _ _ _ => true
  | .frameReq _ payload _ _ =>
    decide (payload.length ≤ 255) && !(payload == CMD_BYTES_TELEMETRY)
  | .frameReplyTelemetry _ data _ _ => data.length == TELEMETRY_DATA_LEN
  | .frameReplyBadlen _ data _ _ =>
    decide (data.length ≤ 253) && !(data.length == TELEMETRY_DATA_LEN)
  | .frameReplyOther _ payload _ _ =>
    decide (payload.length ≤ 255) && !(beginsTelemetry payload)
  -- R135: FV guarantees the length
  | .crcCheck c len => decide (len + 7 ≤ c.length)
  -- R188: a sequence that passed check 3
  | .fvHeader c => decide (4 ≤ c.length) && decide (lengthByte c + 7 ≤ c.length)
  -- R200, R201: a reply with its own header
  | .tcDecode c hdr =>
    decide (4 ≤ c.length) && decide (lengthByte c + 7 ≤ c.length) && byteAt c 1 == ACK
      && decide (hdr = header c)
  -- R206: the widths of the two ASCII fields
  | .tcUnpackAscii bytes => bytes.length == 11 || bytes.length == 18
  -- R211: the widths of the four reserved groups
  | .tcUnpackPad bytes => bytes.length == 6 || bytes.length == 2
  -- R226: the encoder's domain
  | .tcEncode id cmd => !(id == 0#8) && decide (cmd.length ≤ 255)
  -- R260: a record TC.DECODE returned
  | .saAccept _ record _ => recordComplete record
  | .reset | .run | .shutdown | .fatal => true
  | .crcReset | .crcByte _ | .crcBlock _ | .crcValue => true
  | .frStart | .frByteHunt _ | .frByteKind _ | .frByteHdr _ | .frByteBody _ | .frByteLast _ => true
  | .frTimeout | .frFault => true
  | .fvValidate _ => true
  | .tcUnpackU8 _ | .tcUnpackU16 _ _ _ | .tcUnpackU32 _ _ _ _ _ | .tcUnpackRaw32 _ _ _ _ => true
  | .tcScale _ _ _ => true
  | .psTick _ | .psNoteTraffic _ => true
  | .saFlush _ | .saFinalFlush _ => true

end Sys2Proof
end

