-- ==== Sys2Proof/Decode.lean ====
section
/-! DEFINITION. The decoder, from bytes to an instruction or a named rejection, and after it the
encoder. Two code spaces (log 1, 4): a frame is read by the frame map of 30_encoding.md R99 and R116,
an operation by the opsel codes of R112 with its operands behind the code (log 2). -/

namespace Sys2Proof

open Sys2Proof.Machine

/-! ### Types -/

/-- The two code spaces of spec/opcode_table.json (R116). -/
inductive Space where
  | frame | operation
deriving DecidableEq, Repr

/-- The five rows of FR.BYTE (opsel 0x21), told apart by `fr.phase` and `fr.need` (R116). -/
inductive FrRow where
  | hunt | kind | hdr | body | last
deriving DecidableEq, Repr

/-- Why bytes are no instruction. -/
inductive DecodeError where
  /-- There is no first byte. -/
  | empty
  /-- The first byte is none of R112's codes. -/
  | unknownOpsel (b : Byte)
  /-- The bytes behind the code are not its operands: they end early or name nothing. -/
  | badOperands (b : Byte)
  /-- The first byte of a frame is not STX. -/
  | badStart
  /-- The kind byte of a frame is neither ENQ nor ACK (R102). -/
  | badKind
  /-- There are fewer bytes than the length byte announces. -/
  | shortFrame
deriving DecidableEq, Repr

/-- What the decoder answers. -/
inductive Decoded where
  | instr (i : Instr)
  | reject (e : DecodeError)
deriving DecidableEq, Repr

/-- The instruction of an answer, if it is one. -/
def Decoded.toOption : Decoded → Option Instr
  | .instr i => some i
  | .reject _ => none

/-! ### Frames (R99, R116) -/

/-- The row of a request with this PAYLOAD: FRAME.REQ.TELEMETRY is tried before FRAME.REQ. -/
def requestRow (id : Byte) (payload : List Byte) (crc : Word16) (term : Byte) : Instr :=
  if payload = CMD_BYTES_TELEMETRY then .frameReqTelemetry id crc term
  else .frameReq id payload crc term

/-- The row of a reply with this PAYLOAD, the three reply rows tried in order. -/
def replyRow (id : Byte) (payload : List Byte) (crc : Word16) (term : Byte) : Instr :=
  if beginsTelemetry payload then
    if payload.length = TELEMETRY_LENGTH then
      .frameReplyTelemetry id (payload.drop 2) crc term
    else .frameReplyBadlen id (payload.drop 2) crc term
  else .frameReplyOther id payload crc term

/-- Reads a frame: the header bytes, then as many as the length byte announces (R90, R94). Bytes
behind the frame are not looked at. -/
def decodeFrame : List Byte → Decoded
  | stx :: kind :: id :: len :: rest =>
    if stx ≠ STX then .reject .badStart
    else if kind ≠ ENQ ∧ kind ≠ ACK then .reject .badKind
    else
      match rest.drop len.toNat with
      | lo :: hi :: term :: _ =>
        if kind = ENQ then .instr (requestRow id (rest.take len.toNat) (le16 lo hi) term)
        else .instr (replyRow id (rest.take len.toNat) (le16 lo hi) term)
      | _ => .reject .shortFrame
  | stx :: kind :: _ =>
    if stx ≠ STX then .reject .badStart
    else if kind ≠ ENQ ∧ kind ≠ ACK then .reject .badKind
    else .reject .shortFrame
  | [stx] => if stx ≠ STX then .reject .badStart else .reject .shortFrame
  | [] => .reject .empty

/-- A frame row of spec/opcode_table.json: match and mask over the first six bytes read big-endian,
the least length byte it is tried for, and one it is skipped for (R116). -/
structure FrameRow where
  pattern : Nat
  mask : Nat
  minL : Nat
  notL : Option Nat
deriving DecidableEq, Repr

/-- The five frame rows, in file order. -/
def frameRows : List FrameRow :=
  [⟨0x020500026001, 0xFFFF00FFFFFF, 2, none⟩,
   ⟨0x020500000000, 0xFFFF00000000, 0, none⟩,
   ⟨0x020600796001, 0xFFFF00FFFFFF, 2, none⟩,
   ⟨0x020600006001, 0xFFFF0000FFFF, 2, some 121⟩,
   ⟨0x020600000000, 0xFFFF00000000, 0, none⟩]

/-- Whether a row fits a byte sequence of at least six bytes (R116). -/
def FrameRow.fits (r : FrameRow) (s : List Byte) : Bool :=
  decide (be (s.take 6) &&& r.mask = r.pattern) && decide (r.minL ≤ lengthByte s)
    && decide (r.notL ≠ some (lengthByte s))

/-- The number of the first row that fits (R116: the first match wins). -/
def frameRowOf (s : List Byte) : Option Nat :=
  (List.range frameRows.length).find? (fun k =>
    match frameRows[k]? with
    | some r => r.fits s
    | none => false)

/-- The number of an instruction's frame row. -/
def Instr.frameRow : Instr → Option Nat
  | .frameReqTelemetry _ _ _ => some 0
  | .frameReq _ _ _ _ => some 1
  | .frameReplyTelemetry _ _ _ _ => some 2
  | .frameReplyBadlen _ _ _ _ => some 3
  | .frameReplyOther _ _ _ _ => some 4
  | _ => none

/-! ### Operands of operations (log 2) -/

/-- One byte. -/
def getByte : List Byte → Option (Byte × List Byte)
  | [] => none
  | b :: bs => some (b, bs)

/-- A natural number: seven bits a byte, least significant first, bit 7 set on every byte but the
last. -/
def getNat : List Byte → Option (Nat × List Byte)
  | [] => none
  | b :: bs =>
    if b.toNat < 128 then some (b.toNat, bs)
    else
      match getNat bs with
      | none => none
      | some (n, r) => some (b.toNat - 128 + 128 * n, r)

/-- An integer: twice its value, or twice its distance below -1 plus one. -/
def getInt (bs : List Byte) : Option (Int × List Byte) :=
  match getNat bs with
  | none => none
  | some (n, r) => some (if n % 2 = 0 then Int.ofNat (n / 2) else Int.negSucc (n / 2), r)

/-- A byte sequence: its length, then its bytes. -/
def getSeq (bs : List Byte) : Option (List Byte × List Byte) :=
  match getNat bs with
  | none => none
  | some (n, r) => if r.length < n then none else some (r.take n, r.drop n)

/-- An optional byte: 0, or 1 and the byte. -/
def getOptByte : List Byte → Option (Option Byte × List Byte)
  | [] => none
  | b :: bs =>
    if b = 0#8 then some (none, bs)
    else if b = 1#8 then
      match bs with
      | [] => none
      | v :: r => some (some v, r)
    else none

/-- A name out of a list: its place in the list. -/
def getName {α : Type} (names : List α) : List Byte → Option (α × List Byte)
  | [] => none
  | b :: bs =>
    match names[b.toNat]? with
    | none => none
    | some n => some (n, bs)

/-- A record value: a form byte, then its parts. -/
def getValue : List Byte → Option (FieldValue × List Byte)
  | [] => none
  | b :: bs =>
    match b.toNat with
    | 0 => (getSeq bs).map (fun (s, r) => (.str s, r))
    | 1 => (getNat bs).map (fun (n, r) => (.plain n, r))
    | 2 => do
      let (n, r) ← getNat bs
      let (e, r) ← getInt r
      let (u, r) ← getSeq r
      return (.meas n e u, r)
    | 3 => (getNat bs).map (fun (n, r) => (.raw n, r))
    | _ => none

/-- A record entry: the name's place in the record, then the value. -/
def getEntry (bs : List Byte) : Option ((FieldName × FieldValue) × List Byte) := do
  let (n, r) ← getName fieldNames bs
  let (v, r) ← getValue r
  return ((n, v), r)

/-- `n` items one behind the other. -/
def getMany {α : Type} (get : List Byte → Option (α × List Byte)) :
    Nat → List Byte → Option (List α × List Byte)
  | 0, bs => some ([], bs)
  | n + 1, bs =>
    match get bs with
    | none => none
    | some (a, r) =>
      match getMany get n r with
      | none => none
      | some (as, r') => some (a :: as, r')

/-- A record: the number of entries, then the entries. -/
def getRecord (bs : List Byte) : Option (TelemetryRecord × List Byte) := do
  let (n, r) ← getNat bs
  getMany getEntry n r

/-- A header: its nine fields in the order of R188. -/
def getHeader (bs : List Byte) : Option (Header × List Byte) := do
  let (kind, r) ← getByte bs
  let (deviceId, r) ← getByte r
  let (length, r) ← getNat r
  let (payloadOff, r) ← getNat r
  let (payloadEnd, r) ← getNat r
  let (dataOff, r) ← getNat r
  let (dataLen, r) ← getNat r
  let (command, r) ← getOptByte r
  let (subcommand, r) ← getOptByte r
  return (⟨kind, deviceId, length, payloadOff, payloadEnd, dataOff, dataLen, command, subcommand⟩, r)

/-! ### Operations (R112) -/

/-- The row of FR.BYTE with its operand. -/
def frByteRow (row : FrRow) (b : Byte) : Instr :=
  match row with
  | .hunt => .frByteHunt b
  | .kind => .frByteKind b
  | .hdr => .frByteHdr b
  | .body => .frByteBody b
  | .last => .frByteLast b

/-- The operation of an opsel code, its operands read from the bytes behind the code; `none` where
they are not its operands. -/
def decodeOperands (row : FrRow) (code : Nat) (bs : List Byte) : Option (Option Instr) :=
  match code with
  | 0x00 => some (some .reset)
  | 0x01 => some (some .run)
  | 0x02 => some (some .shutdown)
  | 0x03 => some (some .fatal)
  | 0x10 => some (some .crcReset)
  | 0x11 => some do
    let (b, _) ← getByte bs
    return .crcByte b
  | 0x12 => some do
    let (s, _) ← getSeq bs
    return .crcBlock s
  | 0x13 => some (some .crcValue)
  | 0x14 => some do
    let (c, r) ← getSeq bs
    let (len, _) ← getNat r
    return .crcCheck c len
  | 0x20 => some (some .frStart)
  | 0x21 => some do
    let (b, _) ← getByte bs
    return frByteRow row b
  | 0x22 => some (some .frTimeout)
  | 0x23 => some (some .frFault)
  | 0x30 => some do
    let (c, _) ← getSeq bs
    return .fvValidate c
  | 0x31 => some do
    let (c, _) ← getSeq bs
    return .fvHeader c
  | 0x40 => some do
    let (c, r) ← getSeq bs
    let (hdr, _) ← getHeader r
    return .tcDecode c hdr
  | 0x41 => some do
    let (s, _) ← getSeq bs
    return .tcUnpackAscii s
  | 0x42 => some do
    let (b, _) ← getByte bs
    return .tcUnpackU8 b
  | 0x43 => some do
    let (n, r) ← getName u16Names bs
    let (b0, r) ← getByte r
    let (b1, _) ← getByte r
    return .tcUnpackU16 n b0 b1
  | 0x44 => some do
    let (n, r) ← getName u32Names bs
    let (b0, r) ← getByte r
    let (b1, r) ← getByte r
    let (b2, r) ← getByte r
    let (b3, _) ← getByte r
    return .tcUnpackU32 n b0 b1 b2 b3
  | 0x45 => some do
    let (b0, r) ← getByte bs
    let (b1, r) ← getByte r
    let (b2, r) ← getByte r
    let (b3, _) ← getByte r
    return .tcUnpackRaw32 b0 b1 b2 b3
  | 0x46 => some do
    let (s, _) ← getSeq bs
    return .tcUnpackPad s
  | 0x47 => some do
    let (n, r) ← getNat bs
    let (e, r) ← getInt r
    let (u, _) ← getSeq r
    return .tcScale n e u
  | 0x48 => some do
    let (id, r) ← getByte bs
    let (cmd, _) ← getSeq r
    return .tcEncode id cmd
  | 0x50 => some do
    let (t, _) ← getNat bs
    return .psTick t
  | 0x51 => some do
    let (t, _) ← getNat bs
    return .psNoteTraffic t
  | 0x60 => some do
    let (i, r) ← getNat bs
    let (record, r) ← getRecord r
    let (t, _) ← getNat r
    return .saAccept i record t
  | 0x61 => some do
    let (t, _) ← getNat bs
    return .saFlush t
  | 0x62 => some do
    let (t, _) ← getNat bs
    return .saFinalFlush t
  | _ => none

/-- Reads an operation: the opsel code, then its operands. `row` selects among the rows of FR.BYTE.
Bytes behind the operands are not looked at. -/
def decodeOperation (row : FrRow) : List Byte → Decoded
  | [] => .reject .empty
  | b :: bs =>
    match decodeOperands row b.toNat bs with
    | none => .reject (.unknownOpsel b)
    | some none => .reject (.badOperands b)
    | some (some i) => .instr i

/-- The decoder. -/
def decode (space : Space) (row : FrRow) (bs : List Byte) : Decoded :=
  match space with
  | .frame => decodeFrame bs
  | .operation => decodeOperation row bs

/-! ### The encoder -/

/-- Writes a number for `getNat`; the fuel is at least the number. -/
def putNatFuel : Nat → Nat → List Byte
  | 0, n => [BitVec.ofNat 8 n]
  | fuel + 1, n =>
    if n < 128 then [BitVec.ofNat 8 n]
    else BitVec.ofNat 8 (n % 128 + 128) :: putNatFuel fuel (n / 128)

/-- Writes a number for `getNat`. -/
def putNat (n : Nat) : List Byte := putNatFuel n n

/-- Writes an integer for `getInt`. -/
def putInt : Int → List Byte
  | .ofNat n => putNat (2 * n)
  | .negSucc n => putNat (2 * n + 1)

/-- Writes a byte sequence for `getSeq`. -/
def putSeq (s : List Byte) : List Byte := putNat s.length ++ s

/-- Writes an optional byte for `getOptByte`. -/
def putOptByte : Option Byte → List Byte
  | none => [0#8]
  | some b => [1#8, b]

/-- Writes a name for `getName`. -/
def putName {α : Type} [DecidableEq α] (names : List α) (n : α) : List Byte :=
  [BitVec.ofNat 8 (names.idxOf n)]

/-- Writes a record value for `getValue`. -/
def putValue : FieldValue → List Byte
  | .str s => 0#8 :: putSeq s
  | .plain n => 1#8 :: putNat n
  | .meas n e u => 2#8 :: (putNat n ++ putInt e ++ putSeq u)
  | .raw n => 3#8 :: putNat n

/-- Writes a record entry for `getEntry`. -/
def putEntry (e : FieldName × FieldValue) : List Byte := putName fieldNames e.1 ++ putValue e.2

/-- Writes a record for `getRecord`. -/
def putRecord (rec : TelemetryRecord) : List Byte :=
  putNat rec.length ++ (rec.map putEntry).flatten

/-- Writes a header for `getHeader`. -/
def putHeader (h : Header) : List Byte :=
  [h.kind, h.deviceId] ++ putNat h.length ++ putNat h.payloadOff ++ putNat h.payloadEnd
    ++ putNat h.dataOff ++ putNat h.dataLen ++ putOptByte h.command ++ putOptByte h.subcommand

/-- The code space of an instruction. -/
def Instr.space : Instr → Space
  | .frameReqTelemetry _ _ _ => .frame
  | .frameReq _ _ _ _ => .frame
  | .frameReplyTelemetry _ _ _ _ => .frame
  | .frameReplyBadlen _ _ _ _ => .frame
  | .frameReplyOther _ _ _ _ => .frame
  | _ => .operation

/-- The row of FR.BYTE an instruction is, and HUNT for the others, which have one row each. -/
def Instr.frRow : Instr → FrRow
  | .frByteKind _ => .kind
  | .frByteHdr _ => .hdr
  | .frByteBody _ => .body
  | .frByteLast _ => .last
  | _ => .hunt

/-- The bytes of an instruction: a frame as R90 lays it out, an operation as its opsel code (R112) and
its operands (log 2). -/
def encode : Instr → List Byte
  | .frameReqTelemetry id crc term => frameBytes ENQ id CMD_BYTES_TELEMETRY crc term
  | .frameReq id payload crc term => frameBytes ENQ id payload crc term
  | .frameReplyTelemetry id data crc term => frameBytes ACK id (CMD_BYTES_TELEMETRY ++ data) crc term
  | .frameReplyBadlen id data crc term => frameBytes ACK id (CMD_BYTES_TELEMETRY ++ data) crc term
  | .frameReplyOther id payload crc term => frameBytes ACK id payload crc term
  | .reset => [0x00#8]
  | .run => [0x01#8]
  | .shutdown => [0x02#8]
  | .fatal => [0x03#8]
  | .crcReset => [0x10#8]
  | .crcByte b => [0x11#8, b]
  | .crcBlock s => 0x12#8 :: putSeq s
  | .crcValue => [0x13#8]
  | .crcCheck c len => 0x14#8 :: (putSeq c ++ putNat len)
  | .frStart => [0x20#8]
  | .frByteHunt b => [0x21#8, b]
  | .frByteKind b => [0x21#8, b]
  | .frByteHdr b => [0x21#8, b]
  | .frByteBody b => [0x21#8, b]
  | .frByteLast b => [0x21#8, b]
  | .frTimeout => [0x22#8]
  | .frFault => [0x23#8]
  | .fvValidate c => 0x30#8 :: putSeq c
  | .fvHeader c => 0x31#8 :: putSeq c
  | .tcDecode c hdr => 0x40#8 :: (putSeq c ++ putHeader hdr)
  | .tcUnpackAscii s => 0x41#8 :: putSeq s
  | .tcUnpackU8 b => [0x42#8, b]
  | .tcUnpackU16 n b0 b1 => 0x43#8 :: (putName u16Names n ++ [b0, b1])
  | .tcUnpackU32 n b0 b1 b2 b3 => 0x44#8 :: (putName u32Names n ++ [b0, b1, b2, b3])
  | .tcUnpackRaw32 b0 b1 b2 b3 => [0x45#8, b0, b1, b2, b3]
  | .tcUnpackPad s => 0x46#8 :: putSeq s
  | .tcScale n e u => 0x47#8 :: (putNat n ++ putInt e ++ putSeq u)
  | .tcEncode id cmd => 0x48#8 :: id :: putSeq cmd
  | .psTick t => 0x50#8 :: putNat t
  | .psNoteTraffic t => 0x51#8 :: putNat t
  | .saAccept i record t => 0x60#8 :: (putNat i ++ putRecord record ++ putNat t)
  | .saFlush t => 0x61#8 :: putNat t
  | .saFinalFlush t => 0x62#8 :: putNat t

/-! ### Table words -/

/-- The `n` bytes of a number, least significant first. -/
def bytesLE : Nat → Nat → List Byte
  | 0, _ => []
  | n + 1, w => BitVec.ofNat 8 w :: bytesLE n (w / 256)

/-- The `n` bytes of a number, most significant first. -/
def bytesBE (n w : Nat) : List Byte := (bytesLE n w).reverse

/-- Zeros behind an operation's code, enough for every operand form. -/
def operationPadding : List Byte := List.replicate 32 0#8

/-- Zeros behind a frame's first six bytes, up to the longest frame (R98). -/
def framePadding : List Byte := List.replicate 256 0#8

/-- The space and the bytes of a table word. Frame rows have 48 bits; R116 reads them with offset 0
in the most significant byte. A 48-bit number that does not begin so with STX is laid out with
offset 0 in the least significant byte (log 4). -/
def tableWordBytes (nbits w : Nat) : Space × List Byte :=
  if nbits = 48 then
    if (bytesBE 6 w).head? = some STX then (.frame, bytesBE 6 w ++ framePadding)
    else (.frame, bytesLE 6 w ++ framePadding)
  else (.operation, bytesLE (nbits / 8) w ++ operationPadding)

/-- The instruction the decoder reads from a table word, the bits above it zero. The word 0x21 is
five rows; without a state it is read as the row FR.BYTE in phase HUNT (log 3). -/
def decodeTableWord (nbits w : Nat) : Option Instr :=
  let (space, bs) := tableWordBytes nbits w
  (decode space .hunt bs).toOption

end Sys2Proof
end

