-- ==== Sys2Proof/Machine/Params.lean ====
section
/-! DEFINITION. The scale table SCALE (30_encoding.md R110) and the configuration right after reset
(10_state.md R51, 92_eei_decisions.md). -/

namespace Sys2Proof.Machine

/-- The text "V". -/
def unitV : Text := [0x56#8]
/-- The text "A". -/
def unitA : Text := [0x41#8]
/-- The text "W". -/
def unitW : Text := [0x57#8]
/-- The text "Hz". -/
def unitHz : Text := [0x48#8, 0x7A#8]
/-- The text "s". -/
def unitS : Text := [0x73#8]
/-- The text "kWh". -/
def unitKWh : Text := [0x6B#8, 0x57#8, 0x68#8]
/-- The text "Wh". -/
def unitWh : Text := [0x57#8, 0x68#8]
/-- The text "degC". -/
def unitDegC : Text := [0x64#8, 0x65#8, 0x67#8, 0x43#8]

/-- The entries of SCALE the source fixes: `ac1V`, `feedInTime`, `totalEnergy` (R110, D16). -/
def fixedScale : MeasField → Option Scale
  | .u16 .ac1V => some ⟨-1, unitV⟩
  | .u32 .feedInTime => some ⟨0, unitS⟩
  | .u32 .totalEnergy => some ⟨0, unitKWh⟩
  | _ => none

/-- The default column of R110's table. PRESUMED: all but the three fixed entries and ac2V, ac3V are
the spec's from general knowledge (log 15). -/
def defaultScale : MeasField → Scale
  | .u16 .ac1V | .u16 .ac2V | .u16 .ac3V => ⟨-1, unitV⟩
  | .u16 .ac1V2 | .u16 .ac2V2 | .u16 .ac3V2 => ⟨-1, unitV⟩
  | .u16 .ac1I | .u16 .ac2I | .u16 .ac3I => ⟨-2, unitA⟩
  | .u16 .ac1P | .u16 .ac2P | .u16 .ac3P => ⟨0, unitW⟩
  | .u16 .ac1F1 | .u16 .ac1F2 | .u16 .ac2F1 | .u16 .ac2F2 | .u16 .ac3F1 | .u16 .ac3F2 =>
    ⟨-2, unitHz⟩
  | .u16 .dc1V | .u16 .dc2V => ⟨-1, unitV⟩
  | .u16 .dc1I | .u16 .dc2I => ⟨-2, unitA⟩
  | .u16 .dc1P | .u16 .dc2P => ⟨0, unitW⟩
  | .u16 .acPower => ⟨0, unitW⟩
  | .u16 .temperature => ⟨0, unitDegC⟩
  | .u32 .dayEnergy => ⟨0, unitWh⟩
  | .u32 .feedInTime => ⟨0, unitS⟩
  | .u32 .totalEnergy => ⟨0, unitKWh⟩

/-- `SCALE[name]` (R110): the fixed entries are the source's; another entry is the one the host has
written, or the default. -/
def scaleOf (cfg : Config) (n : MeasField) : Scale :=
  match fixedScale n with
  | some e => e
  | none =>
    match cfg.scale.lookup n with
    | some e => e
    | none => defaultScale n

/-- `SEC(n)` (00_scope.md R16). -/
def sec (cfg : Config) (n : Nat) : Time := n * cfg.ticksPerSecond

/-- The length of an interval setting in time ticks. -/
def intervalTicks (cfg : Config) : Interval → Time
  | .sec n => sec cfg n
  | .ticks n => n

/-- TRAFFIC_FLOOR = SEC(1) (R27). -/
def trafficFloor (cfg : Config) : Time := sec cfg 1

/-- SAMPLE_INTERVAL in time ticks (R25). -/
def sampleInterval (cfg : Config) : Time := intervalTicks cfg cfg.sampleInterval

/-- LOG_INTERVAL in time ticks (R26). -/
def logInterval (cfg : Config) : Time := intervalTicks cfg cfg.logInterval

/-- `elapsed(a, b)`: `b - a`, and 0 when `b < a` (R16). -/
def elapsed (a b : Time) : Time := b - a

/-- The CRC parameters the spec offers. PRESUMED: from general knowledge, not in the source (R22,
R141; log 12). -/
def crcDefault : CrcParams :=
  { poly := 0x8005#16, init := 0x0000#16, refin := true, refout := true, xorout := 0x0000#16 }

/-- The configuration right after reset, for given CRC parameters, which reset does not touch (R51).
The two intervals are the spec's; the other values are DESIGN CHOICES (log 14 to 17). -/
def configAtReset (crc : CrcParams) : Config :=
  { crc := crc
    ticksPerSecond := 1
    sampleInterval := .sec 60
    logInterval := .sec 600
    reporterPresent := true
    scale := []
    sampleFields := measNames
    bufCap := none
    readTimeout := 0 }

end Sys2Proof.Machine
end

