-- ==== Sys2Proof/Machine/State.lean ====
section
/-! DEFINITION. The state of the block (10_state.md), its events (00_scope.md R15) and statuses
(60_exceptions.md R301), the reasons a step of the model can stop, and the state after reset
(10_state.md R51). -/

namespace Sys2Proof.Machine

/-! ### Parts of the state -/

/-- The phase of the frame reader (R34). -/
inductive Phase where
  | idle | hunt | kind | hdr | body
deriving DecidableEq, Repr

/-- The frame reader's registers `fr.phase`, CB, `fr.need`, `fr.consumed` (R34, R35). -/
structure Reader where
  phase : Phase
  cb : List Byte
  need : Nat
  consumed : Bool
deriving DecidableEq, Repr

/-- The scheduler's per-device state (R38). -/
inductive PsState where
  | idle | awaitingReply
deriving DecidableEq, Repr

/-- A buffered sample (R43; 45_sample_accumulator.md R262). -/
structure Sample where
  t : Time
  fields : TelemetryRecord
deriving DecidableEq, Repr

/-- One entry of the device tables: DEV_ID[i] (R24), ps.state[i] (R38), lastSample[i] (R39),
created[i] and serial[i] (R42), buf[i] (R43), total[i] (R44), lastReported[i] (R45). -/
structure Device where
  id : Byte
  psState : PsState
  lastSample : Option Time
  created : Bool
  serial : Option (List Byte)
  buf : List Sample
  total : Option Nat
  lastReported : Option Nat
deriving DecidableEq, Repr

/-- ScheduleClock (R40, R41). -/
structure Clock where
  lastTraffic : Option Time
  lastFlush : Option Time
deriving DecidableEq, Repr

/-- The loop's registers (R46). -/
structure LoopRegs where
  halted : Bool
  fatal : Bool
  t : Time
deriving DecidableEq, Repr

/-! ### Events and results -/

/-- The input events of a reader call (00_scope.md R15). -/
inductive InEvent where
  | byte (b : Byte)
  | timeout
  | transportFault
deriving DecidableEq, Repr

/-- A collaborator's answer (R15). -/
inductive Answer where
  | ok | fail
deriving DecidableEq, Repr

/-- The results of a reader call (41_frame_reader.md R150). -/
inductive ReadResult where
  | candidate (c : List Byte)
  | noDataTimeout
  | noDataFraming
  | fault
deriving DecidableEq, Repr

/-- Why FV finds a sequence invalid (42_frame_validator.md R180). -/
inductive Reason where
  | badStart | badKind | incomplete | badTerminator
  | crcMismatch (computed transmitted : Word16)
deriving DecidableEq, Repr

/-- The result of FV.VALIDATE (R180). -/
inductive Verdict where
  | validReply (hdr : Header)
  | validRequest (hdr : Header)
  | invalid (reason : Reason)
deriving DecidableEq, Repr

/-- The result of TC.DECODE (43_telemetry_codec.md R200). -/
inductive DecodeResult where
  | record (rec : TelemetryRecord)
  | unexpectedCommand (command subcommand : Option Byte)
  | lengthMismatch (dataLen : Nat)
deriving DecidableEq, Repr

/-- The statuses of 60_exceptions.md R301, with the information each carries. -/
inductive Status where
  | noDataTimeout
  | noDataFraming
  | badStart
  | badKind
  | incomplete
  | badTerminator
  | crcMismatch (computed transmitted : Word16)
  | validRequest (deviceId : Byte)
  | unexpectedCommand (deviceId : Byte) (command subcommand : Option Byte)
  | decodeLengthMismatch (deviceId : Byte) (dataLen : Nat)
  | unknownDevice (deviceId : Byte)
  | sampleStored (i : Nat)
  | sampleGated (i : Nat)
  | bufferOverflow (i : Nat)
  | persistFailed (i : Nat)
  | reportFailed (i : Nat)
  | encodeRefused (deviceId : Byte) (len : Nat)
  | shutdownDone
  | fatal
deriving DecidableEq, Repr

/-- The output events (R15). The serial of `persist` and `reportInit` is `serial[i]` as the register
holds it (log 31). -/
inductive OutEvent where
  | tx (bytes : List Byte)
  | status (st : Status)
  | record (i : Nat) (rec : TelemetryRecord)
  | persist (i : Nat) (serial : Option (List Byte)) (samples : List Sample)
  | reportInit (i : Nat) (serial : Option (List Byte))
  | reportTotal (i : Nat) (wh : Nat)
deriving DecidableEq, Repr

/-- What an operation returns to its invoker (00_scope.md R14; log 10). -/
inductive Result where
  | nothing
  | word (v : Word16)
  | crcMatch
  | crcMismatch (computed transmitted : Word16)
  | reader (r : ReadResult)
  | verdict (v : Verdict)
  | header (hdr : Header)
  | decoded (d : DecodeResult)
  | value (v : FieldValue)
  | scaled (value : Rat) (unit : Text)
  | frame (bytes : List Byte)
  | encodeRefused (id : Byte) (len : Nat)
deriving DecidableEq, Repr

/-! ### What the environment gives -/

/-- A configuration write by the host (R31, R341; log 21). -/
inductive CfgWrite where
  | nDev (n : Nat)
  | devId (i : Nat) (id : Byte)
  | ticksPerSecond (n : Nat)
  | sampleInterval (t : Time)
  | logInterval (t : Time)
  | reporterPresent (b : Bool)
  | scale (name : MeasField) (exp : Int) (unit : Text)
  | sampleFields (names : List FieldName)
  | bufCap (cap : Option Nat)
  | readTimeout (t : Time)
deriving DecidableEq, Repr

/-- One thing the environment gives the block (R15; the lines of 30_encoding.md R114; log 5). -/
inductive HostItem where
  /-- An operation: its opsel code and operands. -/
  | op (bytes : List Byte)
  /-- A frame, as the candidate of a reader call (log 4). -/
  | frame (bytes : List Byte)
  /-- A configuration write. -/
  | cfg (w : CfgWrite)
  /-- The time input becomes `n`. -/
  | time (n : Time)
  /-- Events the transport will deliver, behind those already waiting. -/
  | rx (events : List InEvent)
  /-- Answers the collaborators will give, behind those already waiting. -/
  | answer (answers : List Answer)
deriving DecidableEq, Repr

/-- The environment's side: what it will give next, and the trace of the block's outputs (R15;
log 5 to 8, 11). -/
structure Env where
  inbox : List HostItem
  rx : List InEvent
  answers : List Answer
  now : Time
  trace : List OutEvent
deriving DecidableEq, Repr

/-! ### The state -/

/-- The whole state: configuration, device tables, working registers, environment. `running` says that a
run has begun, so that the configuration is frozen (R31): a RUN was given since RESET that the block did
not ignore as halted (R287; DESIGN CHOICE, log 40). -/
structure State where
  cfg : Config
  running : Bool
  devs : List Device
  crcAcc : Word16
  fr : Reader
  tb : List Byte
  record : TelemetryRecord
  clk : Clock
  loop : LoopRegs
  result : Result
  env : Env
deriving DecidableEq, Repr

/-- Why a step of the model faults: the item it was given is no instruction. -/
inductive Fault where
  /-- Raised by `step` on an operation item whose bytes are none of the spec's operations. Safe: the
  spec gives such bytes no meaning, and the model stops. -/
  | illegalOperation (e : DecodeError)
  /-- Raised by `step` on a frame item whose bytes fit no frame row. Safe: the model stops; noise on
  the bus reaches the block through `env.rx`, where it has its meaning. -/
  | illegalFrame (e : DecodeError)
deriving DecidableEq, Repr

/-- Why a step of the model is refused: a move that 93_implementation_defined.md says the model does
not have, or an operation outside the precondition its rule states. -/
inductive Refusal where
  /-- An instruction without a meaning. No arm answers it in this model. Safe. -/
  | notModelled (mnemonic : String)
  /-- RUN with a configuration that is unwritten or ill-formed, a frame with one that is ill-formed
  (U21, R341; log 20), PS.TICK by itself with an address 0 in the table (log 30). Safe. -/
  | badConfig
  /-- A configuration write in a run, from the first RUN on (U20, R31; a RUN that a halted block
  ignores is not counted: DESIGN CHOICE, log 40). Safe. -/
  | configFrozen
  /-- A configuration write to an entry of SCALE the source fixes (R110, D16). Safe. -/
  | fixedParameter
  /-- SA.ACCEPT, or a write to DEV_ID, with an index outside the device table (U26, R66). Safe. -/
  | noDevice (i : Nat)
  /-- An input event while no reader call is in progress (U22, R160). Safe. -/
  | noReaderCall
  /-- A row of FR.BYTE that `fr.phase` and `fr.need` do not select (R116). Safe. -/
  | rowNotSelected
  /-- While a reader call is in progress: FR.START, RUN, a frame before a run, PS.TICK, and at the operation port
  every operation of a unit other than FR (R63, R152, R281; log 24). Safe. -/
  | readerBusy
  /-- A unit operation that the host gives in a run (R50, R322; log 1). Safe. -/
  | unitOperation
  /-- FATAL given by the host: RUN alone invokes it (R288; log 35). Safe. -/
  | fatalByHost
  /-- A frame given by itself in a run, where frames arrive in RUN's reader calls alone (R344; log 4).
  Safe. -/
  | frameInRun
  /-- RESET or SHUTDOWN inside an iteration (U24, R286, R340). Safe. -/
  | midIteration
  /-- CRC.CHECK on a sequence shorter than `L + 7` (R135). Safe. -/
  | shortSequence
  /-- FV.HEADER on a sequence that does not pass check 3 (R188). Safe. -/
  | noHeader
  /-- TC.DECODE on what FV does not classify as a reply with this header (U25, R201). Safe. -/
  | notValidReply
  /-- SA.ACCEPT on a record TC.DECODE could not return (R260). Safe. -/
  | incompleteRecord
deriving DecidableEq, Repr

/-! ### Reset -/

/-- The frame reader with no call in progress (R51). -/
def Reader.reset : Reader := { phase := .idle, cb := [], need := 0, consumed := false }

/-- A device entry at its reset values (R51), for an address. -/
def Device.reset (id : Byte) : Device :=
  { id := id, psState := .idle, lastSample := none, created := false, serial := none, buf := [],
    total := none, lastReported := none }

/-- The block at its reset values (R51), for given CRC parameters and environment, which RESET leaves
alone (R22; log 5). -/
def State.resetWith (crc : CrcParams) (env : Env) : State :=
  { cfg := configAtReset crc
    running := false
    devs := []
    crcAcc := 0x0000#16
    fr := Reader.reset
    tb := []
    record := []
    clk := { lastTraffic := none, lastFlush := none }
    loop := { halted := false, fatal := false, t := 0 }
    result := .nothing
    env := env }

/-- An environment that has given nothing and seen nothing. DESIGN CHOICE: until the host gives a time,
`now` is 0 (log 8). -/
def Env.empty : Env := { inbox := [], rx := [], answers := [], now := 0, trace := [] }

/-- The state right after power-on (R51, R340). Values the spec does not give: log 5 to 8 and 12
to 18. -/
def State.reset : State := State.resetWith crcDefault Env.empty

end Sys2Proof.Machine
end

