-- ==== Sys2Proof/Machine/Ops.lean ====
section
/-! DEFINITION. The named operations over the state that the meanings are written with: the updates
of single registers, the output events and the one failure mechanism (60_exceptions.md R300, R314),
the inputs, and the comparisons of time (44_poll_scheduler.md R241, R242; 46_control_loop.md R284). -/

namespace Sys2Proof.Machine

/-! ### Updates -/

/-- Appends output events to the trace (00_scope.md R15). -/
def State.emit (s : State) (es : List OutEvent) : State :=
  { s with env := { s.env with trace := s.env.trace ++ es } }

/-- Ends an operation with a value for its invoker (R14). -/
def State.ret (s : State) (r : Result) : State := { s with result := r }

/-- Writes `crc.acc`. -/
def State.setAcc (s : State) (v : Word16) : State := { s with crcAcc := v }

/-- Writes the frame reader's registers. -/
def State.setFr (s : State) (r : Reader) : State := { s with fr := r }

/-- Writes TB. -/
def State.setTb (s : State) (bs : List Byte) : State := { s with tb := bs }

/-- Writes `rec`. -/
def State.setRecord (s : State) (rec : TelemetryRecord) : State := { s with record := rec }

/-- Writes the device tables. -/
def State.setDevs (s : State) (ds : List Device) : State := { s with devs := ds }

/-- Writes `clk.lastTraffic`. -/
def State.setLastTraffic (s : State) (t : Time) : State :=
  { s with clk := { s.clk with lastTraffic := some t } }

/-- Writes `clk.lastFlush`. -/
def State.setLastFlush (s : State) (t : Time) : State :=
  { s with clk := { s.clk with lastFlush := some t } }

/-- Writes the loop's registers. -/
def State.setLoop (s : State) (l : LoopRegs) : State := { s with loop := l }

/-- Freezes the configuration (R31). -/
def State.freeze (s : State) : State := { s with running := true }

/-- Writes the events the transport has left. -/
def State.setRx (s : State) (es : List InEvent) : State := { s with env := { s.env with rx := es } }

/-- Writes the answers the collaborators have left. -/
def State.setAnswers (s : State) (as : List Answer) : State :=
  { s with env := { s.env with answers := as } }

/-- Writes what the environment gives next. -/
def State.setInbox (s : State) (items : List HostItem) : State :=
  { s with env := { s.env with inbox := items } }

/-- Writes the time input. -/
def State.setNow (s : State) (t : Time) : State := { s with env := { s.env with now := t } }

/-- Writes the configuration other than the device table. -/
def State.setCfg (s : State) (cfg : Config) : State := { s with cfg := cfg }

/-! ### Failures

The block has no exception in a processor's sense: a failure saves no state, switches no mode and
transfers control nowhere (R314), and there is no return from one (R315). Taking it is one output
event, and the frame in hand is dropped. -/

/-- A failure reaches the loop: its `Status` is emitted and nothing else changes (R300, R314). -/
def State.fail (s : State) (st : Status) : State := s.emit [.status st]

/-! ### Inputs -/

/-- Samples the time input into `loop.t` (46_control_loop.md R282). -/
def State.sampleNow (s : State) : State := s.setLoop { s.loop with t := s.env.now }

/-- The collaborator's answer to the call just made, and the answers left. A list that is at its end
answers `Ok` (30_encoding.md R114; DESIGN CHOICE, log 7). -/
def takeAnswer : List Answer → Answer × List Answer
  | [] => (.ok, [])
  | a :: as => (a, as)

/-! ### The device table -/

/-- `devIndex(id)`: the index of the address in DEV_ID, or `none` (10_state.md R24). -/
def devIndex (devs : List Device) (id : Byte) : Option Nat := devs.findIdx? (fun d => d.id == id)

/-- Whether no address in the table is 0 (R24). -/
def addressesNonzero (devs : List Device) : Bool := devs.all (fun d => !(d.id == 0#8))

/-- Whether the values that are written are ones the rules hold for: no address 0 and no two equal
(R24), a time base (R29), a CRC polynomial with bit 0 (R22; log 20). The names of SAMPLE_FIELDS are
not looked at (DESIGN CHOICE, log 39). -/
def valuesOk (cfg : Config) (devs : List Device) : Bool :=
  addressesNonzero devs && decide ((devs.map (·.id)).Nodup)
    && decide (1 ≤ cfg.ticksPerSecond) && cfg.crc.poly.getLsbD 0

/-- Whether the host has written a configuration a RUN may be given with: at least one address, and
values the rules hold for (R341, U21). -/
def configOk (cfg : Config) (devs : List Device) : Bool := !devs.isEmpty && valuesOk cfg devs

/-! ### Comparisons of time -/

/-- `trafficQuiet(t)` (R241). -/
def trafficQuiet (cfg : Config) (clk : Clock) (t : Time) : Bool :=
  match clk.lastTraffic with
  | none => true
  | some u => decide (trafficFloor cfg ≤ elapsed u t)

/-- `sampleDue(i, t)` for the table entry `d` (R242). -/
def sampleDue (cfg : Config) (d : Device) (t : Time) : Bool :=
  match d.lastSample with
  | none => true
  | some u => decide (sampleInterval cfg ≤ elapsed u t)

/-- `flushDue(t)` (R284). -/
def flushDue (cfg : Config) (clk : Clock) (t : Time) : Bool :=
  match clk.lastFlush with
  | none => true
  | some f => decide (logInterval cfg ≤ elapsed f t)

end Sys2Proof.Machine
end

