-- ==== Sys2Proof/Machine/Accumulator.lean ====
section
/-! DEFINITION. The sample accumulator (45_sample_accumulator.md): the meanings of SA.ACCEPT, SA.FLUSH
and SA.FINAL_FLUSH. -/

namespace Sys2Proof.Machine

/-! ### Accepting a record -/

/-- The bytes of `rec[serialNumber]` (R260). A complete record has the entry; the other case is never
met (log 26). -/
def serialOf (rec : TelemetryRecord) : List Byte :=
  match rec.lookup (.ascii .serialNumber) with
  | some (.str bs) => bs
  | _ => []

/-- `1000 * raw(rec[totalEnergy])`, watt-hours (R263). A complete record has the entry. -/
def totalOf (rec : TelemetryRecord) : Nat :=
  match rec.lookup (.u32 .totalEnergy) with
  | some (.meas raw _ _) => 1000 * raw
  | _ => 0

/-- The sample of a record: the time stamp and the entries named by SAMPLE_FIELDS, in that list's
order (R262). -/
def sampleOf (cfg : Config) (rec : TelemetryRecord) (t : Time) : Sample :=
  { t := t
    fields := cfg.sampleFields.filterMap (fun n => (rec.lookup n).map (fun v => (n, v))) }

/-- Whether a buffer has room: `len(buf[i]) < BUF_CAP` (R260, R270). -/
def bufferHasRoom (cfg : Config) (buf : List Sample) : Bool :=
  match cfg.bufCap with
  | none => true
  | some cap => decide (buf.length < cap)

/-- DeviceState's creation on the first record of a device, and its `ReportInit` (R260). -/
def createDevice (cfg : Config) (i : Nat) (rec : TelemetryRecord) (d : Device) :
    Device × List OutEvent :=
  if d.created then (d, [])
  else
    ({ d with created := true, serial := some (serialOf rec) },
     if cfg.reporterPresent then [.reportInit i (some (serialOf rec))] else [])

/-- The gate and what passes it (R260, R261, R263, R270). -/
def storeSample (cfg : Config) (i : Nat) (rec : TelemetryRecord) (t : Time) (d : Device) :
    Device × List OutEvent :=
  if sampleDue cfg d t then
    if bufferHasRoom cfg d.buf then
      ({ d with lastSample := some t, total := some (totalOf rec),
                buf := d.buf ++ [sampleOf cfg rec t] },
       [.status (.sampleStored i)])
    else
      ({ d with lastSample := some t, total := some (totalOf rec) }, [.status (.bufferOverflow i)])
  else (d, [.status (.sampleGated i)])

/-- SA.ACCEPT on the table entry of device `i` (R260). -/
def acceptDevice (cfg : Config) (i : Nat) (rec : TelemetryRecord) (t : Time) (d : Device) :
    Device × List OutEvent :=
  let c := createDevice cfg i rec d
  let r := storeSample cfg i rec t c.1
  (r.1, c.2 ++ r.2)

/-- SA.ACCEPT on the state (R260). -/
def State.accept (s : State) (i : Nat) (rec : TelemetryRecord) (t : Time) : State :=
  match s.devs[i]? with
  | none => s
  | some d =>
    let r := acceptDevice s.cfg i rec t d
    (s.setDevs (s.devs.set i r.1)).emit r.2

/-! ### Flushing -/

/-- What a step of a flush leaves: the table entry, the output events, the answers left. -/
structure FlushStep where
  dev : Device
  events : List OutEvent
  answers : List Answer
deriving DecidableEq, Repr

/-- `persistStep(i)` (R265). -/
def persistStep (i : Nat) (d : Device) (as : List Answer) : FlushStep :=
  if d.buf = [] then ⟨d, [], as⟩
  else
    match takeAnswer as with
    | (.ok, as') => ⟨{ d with buf := [] }, [.persist i d.serial d.buf], as'⟩
    | (.fail, as') => ⟨d, [.persist i d.serial d.buf, .status (.persistFailed i)], as'⟩

/-- `reportStep(i)` (R266). -/
def reportStep (cfg : Config) (i : Nat) (d : Device) (as : List Answer) : FlushStep :=
  match d.total with
  | none => ⟨d, [], as⟩
  | some w =>
    if d.lastReported = some w then ⟨d, [], as⟩
    else if cfg.reporterPresent then
      match takeAnswer as with
      | (.ok, as') => ⟨{ d with lastReported := some w }, [.reportTotal i w], as'⟩
      | (.fail, as') => ⟨d, [.reportTotal i w, .status (.reportFailed i)], as'⟩
    else ⟨{ d with lastReported := some w }, [], as⟩

/-- One device of a flush: the persist step and, unless the flush is a final one, the report step
(R264, R267). -/
def flushDevice (cfg : Config) (report : Bool) (i : Nat) (d : Device) (as : List Answer) : FlushStep :=
  if d.created then
    let p := persistStep i d as
    if report then
      let r := reportStep cfg i p.dev p.answers
      ⟨r.dev, p.events ++ r.events, r.answers⟩
    else p
  else ⟨d, [], as⟩

/-- The devices of a flush from index `i` on, in ascending order (R268). -/
def flushFrom (cfg : Config) (report : Bool) :
    Nat → List Device → List Answer → List Device × List OutEvent × List Answer
  | _, [], as => ([], [], as)
  | i, d :: ds, as =>
    let r := flushDevice cfg report i d as
    let rest := flushFrom cfg report (i + 1) ds r.answers
    (r.dev :: rest.1, r.events ++ rest.2.1, rest.2.2)

/-- A flush over the whole table, `clk.lastFlush` set after the last device (R264, R267, R268). -/
def State.flush (s : State) (report : Bool) (t : Time) : State :=
  let r := flushFrom s.cfg report 0 s.devs s.env.answers
  (((s.setDevs r.1).setAnswers r.2.2).emit r.2.1).setLastFlush t

/-! ### Meanings -/

/-- SA.ACCEPT (R260), for a device of the table (U26) and a record with the names, order and forms
TC.DECODE returns. DESIGN CHOICE: by itself it does not look at the size of the raw numbers, the
exponents or the units, so that `total[i]` can pass R263's 4294967295000 (log 26), nor at
TICKS_PER_SECOND, as the flushes do not (log 30). -/
def execSaAccept (i : Nat) (record : TelemetryRecord) (t : Time) (s : State) :
    Host.Outcome State Fault Refusal :=
  if s.devs.length ≤ i then .refused (.noDevice i)
  else if recordComplete record then .next ((s.accept i record t).ret .nothing)
  else .refused .incompleteRecord

/-- SA.FLUSH (R264). -/
def execSaFlush (t : Time) (s : State) : Host.Outcome State Fault Refusal :=
  .next ((s.flush true t).ret .nothing)

/-- SA.FINAL_FLUSH (R267): no report step. -/
def execSaFinalFlush (t : Time) (s : State) : Host.Outcome State Fault Refusal :=
  .next ((s.flush false t).ret .nothing)

end Sys2Proof.Machine
end

