-- ==== Sys2Proof/Machine/Crc.lean ====
section
/-! DEFINITION. The CRC-16 engine (40_crc16.md): the function `crc16` over its five parameters, and
the meanings of CRC.RESET, CRC.BYTE, CRC.BLOCK, CRC.VALUE and CRC.CHECK. -/

namespace Sys2Proof.Machine

/-- The byte whose bit i is bit 7 - i of `b` (R136). -/
def reflect8 (b : Byte) : Byte := b.reverse

/-- The word16 whose bit i is bit 15 - i of `v` (R136). -/
def reflect16 (v : Word16) : Word16 := v.reverse

/-- One bit step of CRC.BYTE (R132). -/
def crcBit (poly a : Word16) : Word16 :=
  if a.getLsbD 15 then (a <<< 1) ^^^ poly else a <<< 1

/-- `crc.acc` after CRC.BYTE of `b` (R132). -/
def crcByteAcc (p : CrcParams) (acc : Word16) (b : Byte) : Word16 :=
  let d := if p.refin then reflect8 b else b
  (crcBit p.poly)^[8] (acc ^^^ ((d.setWidth 16) <<< 8))

/-- `crc.acc` after CRC.RESET and CRC.BYTE of every byte of a sequence, in ascending order (R133). -/
def crcAccOf (p : CrcParams) (s : List Byte) : Word16 := s.foldl (crcByteAcc p) p.init

/-- The value CRC.VALUE returns for an accumulator (R134). -/
def crcOut (p : CrcParams) (acc : Word16) : Word16 :=
  (if p.refout then reflect16 acc else acc) ^^^ p.xorout

/-- `crc16(s)` (R133). -/
def crc16 (p : CrcParams) (s : List Byte) : Word16 := crcOut p (crcAccOf p s)

/-- CRC.RESET (R131). -/
def execCrcReset (s : State) : Host.Outcome State Fault Refusal :=
  .next ((s.setAcc s.cfg.crc.init).ret .nothing)

/-- CRC.BYTE (R132). -/
def execCrcByte (b : Byte) (s : State) : Host.Outcome State Fault Refusal :=
  .next ((s.setAcc (crcByteAcc s.cfg.crc s.crcAcc b)).ret .nothing)

/-- CRC.BLOCK (R133). -/
def execCrcBlock (bytes : List Byte) (s : State) : Host.Outcome State Fault Refusal :=
  .next ((s.setAcc (crcAccOf s.cfg.crc bytes)).ret (.word (crc16 s.cfg.crc bytes)))

/-- CRC.VALUE (R134). -/
def execCrcValue (s : State) : Host.Outcome State Fault Refusal :=
  .next (s.ret (.word (crcOut s.cfg.crc s.crcAcc)))

/-- What CRC.CHECK returns (R135). -/
def crcCheckResult (p : CrcParams) (c : List Byte) (len : Nat) : Result :=
  if crc16 p (crcRange c len) = transmittedCrc c len then .crcMatch
  else .crcMismatch (crc16 p (crcRange c len)) (transmittedCrc c len)

/-- CRC.CHECK (R135), defined when the sequence holds `len + 7` bytes. -/
def execCrcCheck (c : List Byte) (len : Nat) (s : State) : Host.Outcome State Fault Refusal :=
  if len + 7 ≤ c.length then
    .next ((s.setAcc (crcAccOf s.cfg.crc (crcRange c len))).ret (crcCheckResult s.cfg.crc c len))
  else .refused .shortSequence

end Sys2Proof.Machine
end

