-- ==== Sys2Proof/Machine/Flags.lean ====
section
/-! DEFINITION. The block has no flags; its nearest thing to condition codes is FV's verdict
(10_state.md R36), and its reports are the status codes (60_exceptions.md R301). This file holds the
five checks and the verdict (42_frame_validator.md R180 to R187), and the status table. -/

namespace Sys2Proof.Machine

/-! ### The five checks -/

/-- Check 1, start marker (R181). -/
def check1 (c : List Byte) : Bool := decide (1 ≤ c.length) && byteAt c 0 == STX

/-- Check 2, kind (R182). -/
def check2 (c : List Byte) : Bool :=
  decide (2 ≤ c.length) && (byteAt c 1 == ENQ || byteAt c 1 == ACK)

/-- Check 3, length (R183). -/
def check3 (c : List Byte) : Bool :=
  decide (4 ≤ c.length) && decide (lengthByte c + 7 ≤ c.length)

/-- Check 4, terminator (R184). -/
def check4 (c : List Byte) : Bool := byteAt c (6 + lengthByte c) == ETX

/-- The CRC computed over a sequence's own CRC range (R185). -/
def computedCrc (p : CrcParams) (c : List Byte) : Word16 := crc16 p (crcRange c (lengthByte c))

/-- Check 5, CRC (R185). -/
def check5 (p : CrcParams) (c : List Byte) : Bool :=
  computedCrc p c == transmittedCrc c (lengthByte c)

/-- FV.VALIDATE: the checks in order, the first that fails gives the result (R180, R187), then the
classification (R186). -/
def validate (p : CrcParams) (c : List Byte) : Verdict :=
  if !check1 c then .invalid .badStart
  else if !check2 c then .invalid .badKind
  else if !check3 c then .invalid .incomplete
  else if !check4 c then .invalid .badTerminator
  else if !check5 p c then
    .invalid (.crcMismatch (computedCrc p c) (transmittedCrc c (lengthByte c)))
  else if byteAt c 1 = ENQ then .validRequest (header c)
  else .validReply (header c)

/-- `crc.acc` after FV.VALIDATE: scratch, used only when check 5 is reached (R193, R187). -/
def validateAcc (p : CrcParams) (c : List Byte) (acc : Word16) : Word16 :=
  if check1 c && check2 c && check3 c && check4 c then crcAccOf p (crcRange c (lengthByte c))
  else acc

/-! ### The status table (R301) -/

/-- The severity a log would grade a status with. -/
inductive Severity where
  | info | warning | error
deriving DecidableEq, Repr

/-- The column "class": the letters of the source's taxonomy, the two classes the table names in words
("§9 open question" and "unrecoverable"), and `none` for `-`, a status that reports no failure. -/
inductive Taxonomy where
  | a | b | c | d | e | f | openQuestion | unrecoverable | none
deriving DecidableEq, Repr

/-- The code of a status. -/
def statusCode : Status → Byte
  | .noDataTimeout => 0x00#8
  | .noDataFraming => 0x01#8
  | .badStart => 0x10#8
  | .badKind => 0x11#8
  | .incomplete => 0x12#8
  | .badTerminator => 0x13#8
  | .crcMismatch _ _ => 0x14#8
  | .validRequest _ => 0x20#8
  | .unexpectedCommand _ _ _ => 0x21#8
  | .decodeLengthMismatch _ _ => 0x22#8
  | .unknownDevice _ => 0x23#8
  | .sampleStored _ => 0x24#8
  | .sampleGated _ => 0x25#8
  | .bufferOverflow _ => 0x26#8
  | .persistFailed _ => 0x30#8
  | .reportFailed _ => 0x31#8
  | .encodeRefused _ _ => 0x32#8
  | .shutdownDone => 0x40#8
  | .fatal => 0x41#8

/-- The severity of a status. -/
def statusSeverity : Status → Severity
  | .noDataTimeout | .noDataFraming => .info
  | .badStart | .badKind | .incomplete | .badTerminator | .crcMismatch _ _ => .warning
  | .validRequest _ => .info
  | .unexpectedCommand _ _ _ | .decodeLengthMismatch _ _ | .unknownDevice _ => .warning
  | .sampleStored _ | .sampleGated _ => .info
  | .bufferOverflow _ | .persistFailed _ | .reportFailed _ | .encodeRefused _ _ => .error
  | .shutdownDone => .info
  | .fatal => .error

/-- The taxonomy class of a status. -/
def statusClass : Status → Taxonomy
  | .noDataTimeout => .a
  | .noDataFraming | .badStart | .badKind => .b
  | .incomplete | .badTerminator => .c
  | .crcMismatch _ _ => .d
  | .decodeLengthMismatch _ _ => .e
  | .persistFailed _ | .reportFailed _ => .f
  | .unexpectedCommand _ _ _ => .openQuestion
  | .fatal => .unrecoverable
  | .validRequest _ | .unknownDevice _ => .none
  | .sampleStored _ | .sampleGated _ | .bufferOverflow _ | .encodeRefused _ _ => .none
  | .shutdownDone => .none

/-- The status the loop emits for an invalid candidate (46_control_loop.md R285). -/
def reasonStatus : Reason → Status
  | .badStart => .badStart
  | .badKind => .badKind
  | .incomplete => .incomplete
  | .badTerminator => .badTerminator
  | .crcMismatch x y => .crcMismatch x y

end Sys2Proof.Machine
end

