-- ==== Sys2Proof/Machine/Codec.lean ====
section
/-! DEFINITION. The telemetry codec (43_telemetry_codec.md): the unpack walk and TC.DECODE, the six
TC.UNPACK operations, TC.SCALE, and TC.ENCODE. -/

namespace Sys2Proof.Machine

/-! ### Unpacking -/

/-- TC.UNPACK.ASCII: the bytes as they are (R206). -/
def unpackAscii (bs : List Byte) : FieldValue := .str bs

/-- TC.UNPACK.U8 (R207). -/
def unpackU8 (bs : List Byte) : FieldValue := .plain (be bs)

/-- A measurement's value: its raw number with the exponent and unit of its SCALE entry (R200). -/
def measuredValue (cfg : Config) (n : MeasField) (bs : List Byte) : FieldValue :=
  .meas (be bs) (scaleOf cfg n).exp (scaleOf cfg n).unit

/-- TC.UNPACK.U16 (R208). -/
def unpackU16 (cfg : Config) (f : U16Field) (bs : List Byte) : FieldValue := measuredValue cfg (.u16 f) bs

/-- TC.UNPACK.U32 (R209). -/
def unpackU32 (cfg : Config) (f : U32Field) (bs : List Byte) : FieldValue := measuredValue cfg (.u32 f) bs

/-- TC.UNPACK.RAW32 (R210). -/
def unpackRaw32 (bs : List Byte) : FieldValue := .raw (be bs)

/-- The record entry of a row, from the row's bytes; none for reserved bytes (R211). -/
def unpackRow (cfg : Config) (r : Row) (bs : List Byte) : Option (FieldName × FieldValue) :=
  match r.field with
  | none => none
  | some (.ascii f) => some (.ascii f, unpackAscii bs)
  | some (.u8 f) => some (.u8 f, unpackU8 bs)
  | some (.u16 f) => some (.u16 f, unpackU16 cfg f bs)
  | some (.u32 f) => some (.u32 f, unpackU32 cfg f bs)
  | some (.raw32 f) => some (.raw32 f, unpackRaw32 bs)

/-- The walk over rows of the descriptor table, the read offset growing by each row's width (R204). -/
def walk (cfg : Config) (c : List Byte) : Nat → List Row → TelemetryRecord
  | _, [] => []
  | o, r :: rs =>
    match unpackRow cfg r (memRead c o r.width) with
    | some e => e :: walk cfg c (o + r.width) rs
    | none => walk cfg c (o + r.width) rs

/-- The record of a telemetry reply: the walk from offset 6 over the whole table (R200). -/
def unpackRecord (cfg : Config) (c : List Byte) : TelemetryRecord := walk cfg c 6 descriptorTable

/-- TC.DECODE: the command test, the length test, then the walk (R200, R202, R203). -/
def decodeReply (cfg : Config) (c : List Byte) (hdr : Header) : DecodeResult :=
  if hdr.command ≠ some CMD_TELEMETRY ∨ hdr.subcommand ≠ some SUB_TELEMETRY then
    .unexpectedCommand hdr.command hdr.subcommand
  else if hdr.dataLen ≠ TELEMETRY_DATA_LEN then .lengthMismatch hdr.dataLen
  else .record (unpackRecord cfg c)

/-- The value of a measurement, the exact rational `raw * 10^exp` (R213). -/
def scaledValue (raw : Nat) : Int → Rat
  | .ofNat k => mkRat (raw * 10 ^ k) 1
  | .negSucc k => mkRat raw (10 ^ (k + 1))

/-! ### Encoding -/

/-- Whether TC.ENCODE refuses its operands (R226). -/
def encodeRefuses (id : Byte) (cmd : List Byte) : Bool := id == 0#8 || decide (255 < cmd.length)

/-- The CRC range of the request being built (R225). -/
def encodeBody (id : Byte) (cmd : List Byte) : List Byte :=
  [ENQ, id, BitVec.ofNat 8 cmd.length] ++ cmd

/-- The request TC.ENCODE builds in TB, by writes in ascending offset order (R225). -/
def encodeFrame (p : CrcParams) (id : Byte) (cmd : List Byte) : List Byte :=
  let v := crc16 p (encodeBody id cmd)
  let tb := memWrite [] 0 [STX]
  let tb := memWrite tb 1 (encodeBody id cmd)
  memWrite tb (cmd.length + 4) [loByte v, hiByte v, ETX]

/-! ### Meanings -/

/-- TC.DECODE (R200), defined for a sequence FV classifies as a reply with this header (R201). The
record built stays in `rec` (10_state.md R37; log 27). -/
def execTcDecode (c : List Byte) (hdr : Header) (s : State) : Host.Outcome State Fault Refusal :=
  if validate s.cfg.crc c = .validReply hdr then
    match decodeReply s.cfg c hdr with
    | .record rec => .next ((s.setRecord rec).ret (.decoded (.record rec)))
    | d => .next (s.ret (.decoded d))
  else .refused .notValidReply

/-- TC.UNPACK.ASCII (R206). DESIGN CHOICE: the rule has the widths 11 and 18; given bytes of another
width the operation runs and returns them (log 28). -/
def execTcUnpackAscii (bytes : List Byte) (s : State) : Host.Outcome State Fault Refusal :=
  .next (s.ret (.value (unpackAscii bytes)))

/-- TC.UNPACK.U8 (R207). -/
def execTcUnpackU8 (b : Byte) (s : State) : Host.Outcome State Fault Refusal :=
  .next (s.ret (.value (unpackU8 [b])))

/-- TC.UNPACK.U16 (R208). -/
def execTcUnpackU16 (name : U16Field) (b0 b1 : Byte) (s : State) :
    Host.Outcome State Fault Refusal :=
  .next (s.ret (.value (unpackU16 s.cfg name [b0, b1])))

/-- TC.UNPACK.U32 (R209). -/
def execTcUnpackU32 (name : U32Field) (b0 b1 b2 b3 : Byte) (s : State) :
    Host.Outcome State Fault Refusal :=
  .next (s.ret (.value (unpackU32 s.cfg name [b0, b1, b2, b3])))

/-- TC.UNPACK.RAW32 (R210). -/
def execTcUnpackRaw32 (b0 b1 b2 b3 : Byte) (s : State) : Host.Outcome State Fault Refusal :=
  .next (s.ret (.value (unpackRaw32 [b0, b1, b2, b3])))

/-- TC.UNPACK.PAD: nothing is added to the record, and the bytes are not looked at (R211). DESIGN CHOICE:
the rule has the widths 6 and 2; with another width the operation runs and does the same (log 28). -/
def execTcUnpackPad (_bytes : List Byte) (s : State) : Host.Outcome State Fault Refusal :=
  .next (s.ret .nothing)

/-- TC.SCALE (R213); the unit is carried along unchanged. -/
def execTcScale (raw : Nat) (exp : Int) (unit : Text) (s : State) :
    Host.Outcome State Fault Refusal :=
  .next (s.ret (.scaled (scaledValue raw exp) unit))

/-- TC.ENCODE (R225). Outside its domain it fails with EncodeRefused and builds nothing (R226,
R310). -/
def execTcEncode (id : Byte) (cmd : List Byte) (s : State) : Host.Outcome State Fault Refusal :=
  if encodeRefuses id cmd then
    .next ((s.fail (.encodeRefused id cmd.length)).ret (.encodeRefused id cmd.length))
  else
    .next (((s.setAcc (crcAccOf s.cfg.crc (encodeBody id cmd))).setTb
      (encodeFrame s.cfg.crc id cmd)).ret (.frame (encodeFrame s.cfg.crc id cmd)))

end Sys2Proof.Machine
end

