-- ==== Sys2Proof/Machine/FrameReader.lean ====
section
/-! DEFINITION. The frame synchronizer (41_frame_reader.md): the transitions of one reader call, and
the meanings of FR.START, FR.BYTE in its five rows, FR.TIMEOUT and FR.FAULT. -/

namespace Sys2Proof.Machine

/-! ### Transitions (R160) -/

/-- The registers after FR.START (R152). -/
def readerStart : Reader := { phase := .hunt, cb := [], need := 0, consumed := false }

/-- Appends a byte to CB at offset `len(CB)` (20_memory.md R64). -/
def pushByte (cb : List Byte) (b : Byte) : List Byte := memWrite cb cb.length [b]

/-- FR.BYTE in phase HUNT (R153). -/
def byteHunt (b : Byte) (r : Reader) : Reader × Option ReadResult :=
  if b = STX then ({ r with consumed := true, cb := [STX], phase := .kind }, none)
  else ({ r with consumed := true }, none)

/-- FR.BYTE in phase KIND (R154). -/
def byteKind (b : Byte) (r : Reader) : Reader × Option ReadResult :=
  if b = ENQ ∨ b = ACK then
    ({ phase := .hdr, cb := pushByte r.cb b, need := 2, consumed := true }, none)
  else ({ r with consumed := true, cb := [], phase := .hunt }, none)

/-- FR.BYTE in phase HDR (R155). -/
def byteHdr (b : Byte) (r : Reader) : Reader × Option ReadResult :=
  let cb := pushByte r.cb b
  let need := r.need - 1
  if need = 0 then
    ({ phase := .body, cb := cb, need := lengthByte cb + 3, consumed := true }, none)
  else ({ r with consumed := true, cb := cb, need := need }, none)

/-- FR.BYTE in phase BODY, not the last byte (R156). -/
def byteBody (b : Byte) (r : Reader) : Reader × Option ReadResult :=
  ({ r with consumed := true, cb := pushByte r.cb b, need := r.need - 1 }, none)

/-- FR.BYTE in phase BODY, the last byte (R159). -/
def byteLast (b : Byte) (r : Reader) : Reader × Option ReadResult :=
  ({ phase := .idle, cb := [], need := 0, consumed := true }, some (.candidate (pushByte r.cb b)))

/-- FR.TIMEOUT (R157). -/
def readerTimeout (r : Reader) : Reader × ReadResult :=
  ({ r with cb := [], need := 0, phase := .idle },
   if r.consumed then .noDataFraming else .noDataTimeout)

/-- FR.FAULT (R158). -/
def readerFault (r : Reader) : Reader × ReadResult :=
  ({ r with cb := [], need := 0, phase := .idle }, .fault)

/-- The row of FR.BYTE that `fr.phase` and `fr.need` select (30_encoding.md R116). -/
def selectRow (r : Reader) : Option FrRow :=
  match r.phase with
  | .idle => none
  | .hunt => some .hunt
  | .kind => some .kind
  | .hdr => some .hdr
  | .body => if 1 < r.need then some .body else if r.need = 1 then some .last else none

/-- What a row does with its byte. -/
def rowByte (row : FrRow) (b : Byte) (r : Reader) : Reader × Option ReadResult :=
  match row with
  | .hunt => byteHunt b r
  | .kind => byteKind b r
  | .hdr => byteHdr b r
  | .body => byteBody b r
  | .last => byteLast b r

/-- FR.BYTE: the selected row takes the byte. Where none is selected there is no transition (R160). -/
def readerByte (b : Byte) (r : Reader) : Reader × Option ReadResult :=
  match selectRow r with
  | some row => rowByte row b r
  | none => (r, none)

/-! ### Input events -/

/-- The 2-bit code `ev` of an input event (30_encoding.md R112). -/
def evCode : InEvent → BitVec 2
  | .byte _ => 0#2
  | .timeout => 1#2
  | .transportFault => 2#2

/-- The input event of a code `ev` and its 8-bit operand, which only `Byte` has; code 3 is unused and
never occurs (R112). -/
def eventOf (ev : BitVec 2) (operand : Byte) : Option InEvent :=
  if ev = 0#2 then some (.byte operand)
  else if ev = 1#2 then some .timeout
  else if ev = 2#2 then some .transportFault
  else none

/-- The operation an input event invokes (R112); `fr.phase` and `fr.need` select the row of FR.BYTE
(R116), which in IDLE, where no event is taken, is read as HUNT's (log 3). -/
def eventInstr (r : Reader) : InEvent → Instr
  | .byte b => frByteRow ((selectRow r).getD .hunt) b
  | .timeout => .frTimeout
  | .transportFault => .frFault

/-! ### A reader call -/

/-- The rest of a reader call: one operation per event until one returns a result (R150). Answers
the result, the events left, and the registers. Past the listed events the line is silent, and the
read window passes with no byte: `Timeout` (00_scope.md R15; DEDUCED, log 6). -/
def readCall : List InEvent → Reader → ReadResult × List InEvent × Reader
  | [], r => ((readerTimeout r).2, [], (readerTimeout r).1)
  | .timeout :: es, r => ((readerTimeout r).2, es, (readerTimeout r).1)
  | .transportFault :: es, r => ((readerFault r).2, es, (readerFault r).1)
  | .byte b :: es, r =>
    match readerByte b r with
    | (r', some res) => (res, es, r')
    | (r', none) => readCall es r'

/-! ### Meanings -/

/-- What a transition hands to its invoker: the call's result, if it ended. -/
def readResult : Option ReadResult → Result
  | none => .nothing
  | some res => .reader res

/-- A row of FR.BYTE at the operation port: it takes the byte when `fr.phase` and `fr.need` select it
(R116). With no reader call in progress there is no transition (R160, U22). -/
def frByteOp (row : FrRow) (f : Reader → Reader × Option ReadResult) (s : State) :
    Host.Outcome State Fault Refusal :=
  if s.fr.phase = .idle then .refused .noReaderCall
  else if selectRow s.fr = some row then .next ((s.setFr (f s.fr).1).ret (readResult (f s.fr).2))
  else .refused .rowNotSelected

/-- FR.START (R152). -/
def execFrStart (s : State) : Host.Outcome State Fault Refusal :=
  if s.fr.phase = .idle then .next ((s.setFr readerStart).ret .nothing)
  else .refused .readerBusy

/-- FR.BYTE in phase HUNT (R153). -/
def execFrByteHunt (b : Byte) (s : State) : Host.Outcome State Fault Refusal :=
  frByteOp .hunt (byteHunt b) s

/-- FR.BYTE in phase KIND (R154). -/
def execFrByteKind (b : Byte) (s : State) : Host.Outcome State Fault Refusal :=
  frByteOp .kind (byteKind b) s

/-- FR.BYTE in phase HDR (R155). -/
def execFrByteHdr (b : Byte) (s : State) : Host.Outcome State Fault Refusal :=
  frByteOp .hdr (byteHdr b) s

/-- FR.BYTE in phase BODY, not the last byte (R156). -/
def execFrByteBody (b : Byte) (s : State) : Host.Outcome State Fault Refusal :=
  frByteOp .body (byteBody b) s

/-- FR.BYTE in phase BODY, the last byte (R159). -/
def execFrByteLast (b : Byte) (s : State) : Host.Outcome State Fault Refusal :=
  frByteOp .last (byteLast b) s

/-- FR.TIMEOUT (R157), valid in every phase but IDLE. -/
def execFrTimeout (s : State) : Host.Outcome State Fault Refusal :=
  if s.fr.phase = .idle then .refused .noReaderCall
  else .next ((s.setFr (readerTimeout s.fr).1).ret (.reader (readerTimeout s.fr).2))

/-- FR.FAULT (R158), valid in every phase but IDLE. -/
def execFrFault (s : State) : Host.Outcome State Fault Refusal :=
  if s.fr.phase = .idle then .refused .noReaderCall
  else .next ((s.setFr (readerFault s.fr).1).ret (.reader (readerFault s.fr).2))

end Sys2Proof.Machine
end

