-- ==== Sys2Proof/Machine/Scheduler.lean ====
section
/-! DEFINITION. The poll scheduler (44_poll_scheduler.md): the meanings of PS.TICK and
PS.NOTE_TRAFFIC. -/

namespace Sys2Proof.Machine

/-- The telemetry request to an address (R243; 43_telemetry_codec.md R227). -/
def telemetryRequest (p : CrcParams) (id : Byte) : List Byte := encodeFrame p id CMD_BYTES_TELEMETRY

/-- The table entries one evaluation asks, in ascending device index (R240, R246). -/
def dueDevices (cfg : Config) (clk : Clock) (devs : List Device) (t : Time) : List Device :=
  if trafficQuiet cfg clk t then devs.filter (fun d => sampleDue cfg d t) else []

/-- One evaluation (R240): a `Tx` for every due device, `ps.state[i]` left Idle for every device
(R247). The encoder's scratch `crc.acc` is that of the last request built, and TB is not kept after a
`Tx` (20_memory.md R65). -/
def State.tick (s : State) (t : Time) : State :=
  let due := dueDevices s.cfg s.clk s.devs t
  let s := s.setAcc
    (due.foldl (fun _ d => crcAccOf s.cfg.crc (encodeBody d.id CMD_BYTES_TELEMETRY)) s.crcAcc)
  let s := if due.isEmpty then s else s.setTb []
  let s := s.emit (due.map (fun d => .tx (telemetryRequest s.cfg.crc d.id)))
  s.setDevs (s.devs.map (fun d => { d with psState := .idle }))

/-- PS.TICK (R240), which transmits, and so never while a reader call is in progress (20_memory.md R63,
46_control_loop.md R281). DESIGN CHOICE: by itself it looks at one thing of the configuration, that no
address is 0, which the encoder would refuse (R24, R226); with TICKS_PER_SECOND 0, two equal addresses
or an even CRC_POLY, which R22, R24 and R29 rule out, it runs (log 30). -/
def execPsTick (t : Time) (s : State) : Host.Outcome State Fault Refusal :=
  if s.fr.phase ≠ .idle then .refused .readerBusy
  else if addressesNonzero s.devs then .next ((s.tick t).ret .nothing)
  else .refused .badConfig

/-- PS.NOTE_TRAFFIC (R244). -/
def execPsNoteTraffic (t : Time) (s : State) : Host.Outcome State Fault Refusal :=
  .next ((s.setLastTraffic t).ret .nothing)

end Sys2Proof.Machine
end

