-- ==== Sys2Proof/Machine/Loop.lean ====
section
/-! DEFINITION. The control loop (46_control_loop.md): what becomes of a candidate, one iteration, and
the meanings of RESET, RUN, SHUTDOWN and FATAL. -/

namespace Sys2Proof.Machine

/-! ### Step 5 of an iteration: dispatch (R285) -/

/-- A decoded record, in `rec`: reported and accumulated when its address is configured, dropped with
UnknownDevice when it is not (R285, R271). It is consumed (10_state.md R37). -/
def State.deliver (s : State) (id : Byte) : State :=
  match devIndex s.devs id with
  | none => (s.fail (.unknownDevice id)).setRecord []
  | some i => ((s.emit [.record i s.record]).accept i s.record s.loop.t).setRecord []

/-- A valid reply: TC.DECODE, and its result (R285). -/
def State.dispatchReply (s : State) (c : List Byte) (hdr : Header) : State :=
  match decodeReply s.cfg c hdr with
  | .record rec => (s.setRecord rec).deliver hdr.deviceId
  | .unexpectedCommand cm sc => s.fail (.unexpectedCommand hdr.deviceId cm sc)
  | .lengthMismatch n => s.fail (.decodeLengthMismatch hdr.deviceId n)

/-- A candidate: FV.VALIDATE, and its verdict (R285). -/
def State.dispatch (s : State) (c : List Byte) : State :=
  let v := validate s.cfg.crc c
  let s := s.setAcc (validateAcc s.cfg.crc c s.crcAcc)
  match v with
  | .invalid reason => s.fail (reasonStatus reason)
  | .validRequest hdr => s.emit [.status (.validRequest hdr.deviceId)]
  | .validReply hdr => s.dispatchReply c hdr

/-! ### One iteration (R280, R281) -/

/-- Steps 2 and 4: the time stamp, and the traffic note of a reader call that took a byte (R282,
R283). -/
def State.stampTraffic (s : State) : State :=
  let s := s.sampleNow
  s.setLastTraffic s.loop.t

/-- Steps 2, 4 and 5 for a candidate. -/
def State.receive (s : State) (c : List Byte) : State := s.stampTraffic.dispatch c

/-- Steps 6 and 7: the scheduler evaluation and the flush test (R280, R284). -/
def State.finishIteration (s : State) : State :=
  let s := s.tick s.loop.t
  if flushDue s.cfg s.clk s.loop.t then s.flush true s.loop.t else s

/-- FATAL's effect (R288): the final flush at `loop.t`, then the stop. -/
def State.fatalStop (s : State) : State :=
  let s := s.flush false s.loop.t
  (s.setLoop { s.loop with halted := true, fatal := true }).emit [.status .fatal]

/-- Steps 2 to 7, for the result of the reader call (R280). -/
def State.afterCall (s : State) : ReadResult → State
  | .fault => s.sampleNow.fatalStop
  | .candidate c => (s.receive c).finishIteration
  | .noDataFraming => (s.stampTraffic.fail .noDataFraming).finishIteration
  | .noDataTimeout => (s.sampleNow.fail .noDataTimeout).finishIteration

/-- One iteration (R280): FR.START, the events of one reader call, then steps 2 to 7. -/
def State.iterate (s : State) : State :=
  let r := readCall s.env.rx readerStart
  ((s.setFr r.2.2).setRx r.2.1).afterCall r.1

/-- What RUN and a frame demand: a halted block does nothing (R287, U23), and the RUN it ignores is not
the first RUN that R31 counts from (DESIGN CHOICE, log 40); the configuration passes
the check `ok` (R341, U21; log 20); no reader call is in progress (R152). -/
def State.inLoop (s : State) (ok : Bool) (k : State → State) : Host.Outcome State Fault Refusal :=
  if s.loop.halted then .next s
  else if !ok then .refused .badConfig
  else if s.fr.phase ≠ .idle then .refused .readerBusy
  else .next (k s)

/-! ### Meanings -/

/-- RESET (R340): every piece of state of the block takes its reset value; nothing is flushed and
nothing emitted. Given between iterations (U24). -/
def execReset (s : State) : Host.Outcome State Fault Refusal :=
  if s.fr.phase = .idle then .next (State.resetWith s.cfg.crc s.env) else .refused .midIteration

/-- RUN, one pass of the loop (R280). The configuration is frozen from here on (R31). DESIGN CHOICE: a
RUN that a halted block ignores (R287), as after a SHUTDOWN before any RUN, freezes nothing and begins
no run (log 40). -/
def execRun (s : State) : Host.Outcome State Fault Refusal :=
  s.inLoop (configOk s.cfg s.devs) (fun s => s.freeze.iterate.ret .nothing)

/-- SHUTDOWN (R286): the final flush without report, then the stop. Given between iterations (U24). -/
def execShutdown (s : State) : Host.Outcome State Fault Refusal :=
  if s.loop.halted then .next s
  else if s.fr.phase ≠ .idle then .refused .midIteration
  else
    let s := s.sampleNow
    let s := s.flush false s.loop.t
    .next (((s.setLoop { s.loop with halted := true }).emit [.status .shutdownDone]).ret .nothing)

/-- FATAL (R288), as RUN invokes it at the time stamp it has made. That it comes only after a reader
call that ended with Fault is RUN's test, and the operation port never takes it (log 35). -/
def execFatal (s : State) : Host.Outcome State Fault Refusal := .next (s.fatalStop.ret .nothing)

end Sys2Proof.Machine
end

