-- ==== Sys2Proof/Machine/Frames.lean ====
section
/-! DEFINITION. The frame rows of spec/opcode_table.json: what the block does with each kind of frame
(30_encoding.md R99), each written from the rule its row names. A frame reaches the loop as the
candidate of a reader call (log 4). -/

namespace Sys2Proof.Machine

/-- A frame in the loop's hand: the time stamp and the traffic note, FV's checks, and what is done
with it when they pass, given its header (46_control_loop.md R285). -/
def State.onValid (s : State) (c : List Byte) (k : State → Header → State) : State :=
  let s := s.stampTraffic
  let v := validate s.cfg.crc c
  let s := s.setAcc (validateAcc s.cfg.crc c s.crcAcc)
  match v with
  | .invalid reason => s.fail (reasonStatus reason)
  | .validRequest hdr => k s hdr
  | .validReply hdr => k s hdr

/-- FRAME.REQ.TELEMETRY, received: handled as FRAME.REQ, valid but ignored (R186, R227). -/
def execFrameReqTelemetry (id : Byte) (crc : Word16) (term : Byte) (s : State) :
    Host.Outcome State Fault Refusal :=
  s.inLoop (valuesOk s.cfg s.devs) (fun s =>
    (s.onValid (frameBytes ENQ id CMD_BYTES_TELEMETRY crc term)
      (fun s hdr => s.emit [.status (.validRequest hdr.deviceId)])).ret .nothing)

/-- FRAME.REQ: valid but ignored (R186). -/
def execFrameReq (id : Byte) (payload : List Byte) (crc : Word16) (term : Byte) (s : State) :
    Host.Outcome State Fault Refusal :=
  s.inLoop (valuesOk s.cfg s.devs) (fun s =>
    (s.onValid (frameBytes ENQ id payload crc term)
      (fun s hdr => s.emit [.status (.validRequest hdr.deviceId)])).ret .nothing)

/-- FRAME.REPLY.TELEMETRY: decoded by TC.DECODE into a record, which is delivered (R200, R285). -/
def execFrameReplyTelemetry (id : Byte) (data : List Byte) (crc : Word16) (term : Byte) (s : State) :
    Host.Outcome State Fault Refusal :=
  let c := frameBytes ACK id (CMD_BYTES_TELEMETRY ++ data) crc term
  s.inLoop (valuesOk s.cfg s.devs) (fun s =>
    (s.onValid c (fun s hdr => s.dispatchReply c hdr)).ret .nothing)

/-- FRAME.REPLY.BADLEN: the telemetry command with another length, discarded (R203, R307). -/
def execFrameReplyBadlen (id : Byte) (data : List Byte) (crc : Word16) (term : Byte) (s : State) :
    Host.Outcome State Fault Refusal :=
  s.inLoop (valuesOk s.cfg s.devs) (fun s =>
    (s.onValid (frameBytes ACK id (CMD_BYTES_TELEMETRY ++ data) crc term)
      (fun s hdr => s.fail (.decodeLengthMismatch hdr.deviceId hdr.dataLen))).ret .nothing)

/-- FRAME.REPLY.OTHER: another command, or none, discarded (R202, R306). -/
def execFrameReplyOther (id : Byte) (payload : List Byte) (crc : Word16) (term : Byte) (s : State) :
    Host.Outcome State Fault Refusal :=
  s.inLoop (valuesOk s.cfg s.devs) (fun s =>
    (s.onValid (frameBytes ACK id payload crc term)
      (fun s hdr =>
        s.fail (.unexpectedCommand hdr.deviceId hdr.command hdr.subcommand))).ret .nothing)

end Sys2Proof.Machine
end

