-- ==== Sys2Proof/Machine/Validator.lean ====
section
/-! DEFINITION. The length and CRC validator (42_frame_validator.md): the meanings of FV.VALIDATE and
FV.HEADER. The checks themselves are in Flags.lean. -/

namespace Sys2Proof.Machine

/-- FV.VALIDATE (R180); it writes the scratch `crc.acc` and nothing else (R193). -/
def execFvValidate (c : List Byte) (s : State) : Host.Outcome State Fault Refusal :=
  .next ((s.setAcc (validateAcc s.cfg.crc c s.crcAcc)).ret (.verdict (validate s.cfg.crc c)))

/-- FV.HEADER (R188), defined for a sequence that passed check 3. -/
def execFvHeader (c : List Byte) (s : State) : Host.Outcome State Fault Refusal :=
  if check3 c then .next (s.ret (.header (header c))) else .refused .noHeader

end Sys2Proof.Machine
end

