-- ==== Sys2Proof/Machine/Dispatch.lean ====
section
/-! DEFINITION. The meaning of every instruction: one arm per constructor of `Instr`. -/

namespace Sys2Proof.Machine

def exec (i : Instr) (s : State) : Host.Outcome State Fault Refusal :=
  match i with
  | .frameReqTelemetry id crc term => Sys2Proof.Machine.execFrameReqTelemetry id crc term s
  | .frameReq id payload crc term => Sys2Proof.Machine.execFrameReq id payload crc term s
  | .frameReplyTelemetry id data crc term => Sys2Proof.Machine.execFrameReplyTelemetry id data crc term s
  | .frameReplyBadlen id data crc term => Sys2Proof.Machine.execFrameReplyBadlen id data crc term s
  | .frameReplyOther id payload crc term => Sys2Proof.Machine.execFrameReplyOther id payload crc term s
  | .reset => Sys2Proof.Machine.execReset s
  | .run => Sys2Proof.Machine.execRun s
  | .shutdown => Sys2Proof.Machine.execShutdown s
  | .fatal => Sys2Proof.Machine.execFatal s
  | .crcReset => Sys2Proof.Machine.execCrcReset s
  | .crcByte b => Sys2Proof.Machine.execCrcByte b s
  | .crcBlock bytes => Sys2Proof.Machine.execCrcBlock bytes s
  | .crcValue => Sys2Proof.Machine.execCrcValue s
  | .crcCheck c len => Sys2Proof.Machine.execCrcCheck c len s
  | .frStart => Sys2Proof.Machine.execFrStart s
  | .frByteHunt b => Sys2Proof.Machine.execFrByteHunt b s
  | .frByteKind b => Sys2Proof.Machine.execFrByteKind b s
  | .frByteHdr b => Sys2Proof.Machine.execFrByteHdr b s
  | .frByteBody b => Sys2Proof.Machine.execFrByteBody b s
  | .frByteLast b => Sys2Proof.Machine.execFrByteLast b s
  | .frTimeout => Sys2Proof.Machine.execFrTimeout s
  | .frFault => Sys2Proof.Machine.execFrFault s
  | .fvValidate c => Sys2Proof.Machine.execFvValidate c s
  | .fvHeader c => Sys2Proof.Machine.execFvHeader c s
  | .tcDecode c hdr => Sys2Proof.Machine.execTcDecode c hdr s
  | .tcUnpackAscii bytes => Sys2Proof.Machine.execTcUnpackAscii bytes s
  | .tcUnpackU8 b => Sys2Proof.Machine.execTcUnpackU8 b s
  | .tcUnpackU16 name b0 b1 => Sys2Proof.Machine.execTcUnpackU16 name b0 b1 s
  | .tcUnpackU32 name b0 b1 b2 b3 => Sys2Proof.Machine.execTcUnpackU32 name b0 b1 b2 b3 s
  | .tcUnpackRaw32 b0 b1 b2 b3 => Sys2Proof.Machine.execTcUnpackRaw32 b0 b1 b2 b3 s
  | .tcUnpackPad bytes => Sys2Proof.Machine.execTcUnpackPad bytes s
  | .tcScale raw exp unit => Sys2Proof.Machine.execTcScale raw exp unit s
  | .tcEncode id cmd => Sys2Proof.Machine.execTcEncode id cmd s
  | .psTick t => Sys2Proof.Machine.execPsTick t s
  | .psNoteTraffic t => Sys2Proof.Machine.execPsNoteTraffic t s
  | .saAccept dev record t => Sys2Proof.Machine.execSaAccept dev record t s
  | .saFlush t => Sys2Proof.Machine.execSaFlush t s
  | .saFinalFlush t => Sys2Proof.Machine.execSaFinalFlush t s

end Sys2Proof.Machine
end

