-- ==== Sys2Proof/Machine/HostInput.lean ====
section
/-! DEFINITION. What the block does with the items the environment gives it: how an operation and a
frame are fetched from their bytes, and the configuration writes (10_state.md R31; 70_reset_and_hazards.md
R341). -/

namespace Sys2Proof.Machine

/-! ### Fetch -/

/-- The instruction of an operation item. The state selects the row of FR.BYTE (30_encoding.md R116);
with no call in progress the code is read as the row of phase HUNT (log 3). -/
def State.fetchOperation (s : State) (bs : List Byte) : Decoded :=
  decode .operation ((selectRow s.fr).getD .hunt) bs

/-- The instruction of a frame item (R116). -/
def State.fetchFrame (_s : State) (bs : List Byte) : Decoded := decode .frame .hunt bs

/-! ### Who performs an operation -/

/-- Who performs an operation: the host, or a unit of the block (00_scope.md R2, 60_exceptions.md
R322); `bus` for the frame rows, which are no operations (30_encoding.md R116). DESIGN CHOICE: TC.SCALE, which
R112 has invoked by "any reader of a record", counts as an operation of its unit, TC (log 1). -/
inductive Performer where
  | host | loop | crc | fr | fv | tc | ps | sa | bus
deriving DecidableEq, Repr

/-- The performer of an instruction (R112, R116, R322). -/
def performer : Instr → Performer
  | .reset | .run | .shutdown => .host
  | .fatal => .loop
  | .crcReset | .crcByte _ | .crcBlock _ | .crcValue | .crcCheck _ _ => .crc
  | .frStart | .frByteHunt _ | .frByteKind _ | .frByteHdr _ | .frByteBody _ | .frByteLast _ => .fr
  | .frTimeout | .frFault => .fr
  | .fvValidate _ | .fvHeader _ => .fv
  | .tcDecode _ _ | .tcUnpackAscii _ | .tcUnpackU8 _ | .tcUnpackU16 _ _ _ => .tc
  | .tcUnpackU32 _ _ _ _ _ | .tcUnpackRaw32 _ _ _ _ | .tcUnpackPad _ => .tc
  | .tcScale _ _ _ | .tcEncode _ _ => .tc
  | .psTick _ | .psNoteTraffic _ => .ps
  | .saAccept _ _ _ | .saFlush _ | .saFinalFlush _ => .sa
  | .frameReqTelemetry _ _ _ | .frameReq _ _ _ _ | .frameReplyTelemetry _ _ _ _ => .bus
  | .frameReplyBadlen _ _ _ _ | .frameReplyOther _ _ _ _ => .bus

/-- What keeps an operation or a frame from being given by itself. FATAL is never the host's: RUN alone
invokes it (R288; log 35). In a run, which begins with the first RUN that is not ignored (log 40), the
host gives only RESET, RUN and SHUTDOWN (10_state.md R50, R322; log 1), TC.SCALE, as an operation of TC,
refused there with the others (DESIGN CHOICE, log 1), and a frame arrives only in a reader call of RUN
(R344; log 4). While a reader call is in progress no unit but FR runs (R281; log 24); that a frame waits
then too is `State.inLoop`'s test. -/
def State.portRefusal (s : State) (i : Instr) : Option Refusal :=
  match performer i with
  | .host => none
  | .loop => some .fatalByHost
  | .bus => if s.running then some .frameInRun else none
  | .fr => if s.running then some .unitOperation else none
  | .crc | .fv | .tc | .ps | .sa =>
    if s.running then some .unitOperation
    else if s.fr.phase = .idle then none
    else some .readerBusy

/-! ### Configuration writes -/

/-- The device table resized to `n` entries; a new entry has no address yet (log 21). -/
def resizeDevices (devs : List Device) (n : Nat) : List Device :=
  devs.take n ++ List.replicate (n - devs.length) (Device.reset 0#8)

/-- Writes one entry of SCALE. -/
def writeScale (cfg : Config) (name : MeasField) (e : Scale) : Config :=
  { cfg with scale := (name, e) :: cfg.scale.filter (fun x => !(x.1 == name)) }

/-- A configuration write (R31, R341). Once a run has begun there is no such move (U20); a RUN that a
halted block ignores begins none (DESIGN CHOICE, log 40). DESIGN CHOICE:
SAMPLE_FIELDS takes any of the 39 names of R109, as 45_sample_accumulator.md R262 has it, where the
parameter table of 92_eei_decisions.md has measurements only; nothing checks the list (log 39). -/
def State.hostWrite (s : State) (w : CfgWrite) : Host.Outcome State Fault Refusal :=
  if s.running then .refused .configFrozen
  else
    match w with
    | .nDev n => .next (s.setDevs (resizeDevices s.devs n))
    | .devId i id =>
      match s.devs[i]? with
      | none => .refused (.noDevice i)
      | some d => .next (s.setDevs (s.devs.set i { d with id := id }))
    | .ticksPerSecond n => .next (s.setCfg { s.cfg with ticksPerSecond := n })
    | .sampleInterval t => .next (s.setCfg { s.cfg with sampleInterval := .ticks t })
    | .logInterval t => .next (s.setCfg { s.cfg with logInterval := .ticks t })
    | .reporterPresent b => .next (s.setCfg { s.cfg with reporterPresent := b })
    | .scale name exp unit =>
      match fixedScale name with
      | some _ => .refused .fixedParameter
      | none => .next (s.setCfg (writeScale s.cfg name ⟨exp, unit⟩))
    | .sampleFields names => .next (s.setCfg { s.cfg with sampleFields := names })
    | .bufCap cap => .next (s.setCfg { s.cfg with bufCap := cap })
    | .readTimeout t => .next (s.setCfg { s.cfg with readTimeout := t })

/-- What must stand before an operation of this code can be given at all (log 3): an input event
(FR.BYTE, FR.TIMEOUT, FR.FAULT) comes only in a reader call (R160), which is begun where none is in
progress; a RUN comes only after the host has written an address (R341), and where it has written none
address 1 stands for that. -/
def State.prepareFor (s : State) (code : Option Byte) : State :=
  if code = some 0x21#8 ∨ code = some 0x22#8 ∨ code = some 0x23#8 then
    if s.fr.phase = .idle then s.setFr readerStart else s
  else if code = some 0x01#8 ∧ s.devs = [] then s.setDevs [Device.reset 0x01#8]
  else s

/-- Prepares the run of FATAL, which is given by no item: RUN is given next, with a reader call that
ends with Fault, whose step 3 invokes FATAL (46_control_loop.md R280, R288; log 35). -/
def State.prepareFatal (s : State) : State :=
  ((s.setInbox (.op [0x01#8] :: s.env.inbox)).setRx (.transportFault :: s.env.rx)).prepareFor
    (some 0x01#8)

/-- Prepares the fetch of a table word: the word's bytes are given next (log 3, 5), or, for FATAL, what
makes RUN invoke it. -/
def State.fetchWord (s : State) (nbits w : Nat) : State :=
  match tableWordBytes nbits w with
  | (.frame, bs) => s.setInbox (.frame bs :: s.env.inbox)
  | (.operation, bs) =>
    if bs.head? = some 0x03#8 then s.prepareFatal
    else (s.setInbox (.op bs :: s.env.inbox)).prepareFor bs.head?

end Sys2Proof.Machine
end

