-- ==== Sys2Proof/Machine/Step.lean ====
section
/-! DEFINITION. One step of the machine: the next item the environment gives is taken. -/

namespace Sys2Proof.Machine

/-- An instruction that was given: executed, unless it is one that cannot be given here (log 1, 4, 24,
35). -/
def State.perform (s : State) (i : Instr) : Host.Outcome State Fault Refusal :=
  match s.portRefusal i with
  | none => exec i s
  | some r => .refused r

/-- What one item does, once taken (log 5): an operation or a frame is decoded and performed,
a configuration write is made, the inputs of the block are set. -/
def stepItem (s : State) : HostItem → Host.Outcome State Fault Refusal
  | .op bs =>
    match s.fetchOperation bs with
    | .instr i => s.perform i
    | .reject e => .fault (.illegalOperation e)
  | .frame bs =>
    match s.fetchFrame bs with
    | .instr i => s.perform i
    | .reject e => .fault (.illegalFrame e)
  | .cfg w => s.hostWrite w
  | .time n => .next (s.setNow n)
  | .rx events => .next (s.setRx (s.env.rx ++ events))
  | .answer answers => .next (s.setAnswers (s.env.answers ++ answers))

/-- One step. With nothing given the block does nothing (70_reset_and_hazards.md R344). -/
def step (s : State) : Host.Outcome State Fault Refusal :=
  match s.env.inbox with
  | [] => .next s
  | item :: items => stepItem (s.setInbox items) item

/-- The state whose next step fetches and runs the instruction of a table word. -/
def State.withFetchWord (s : State) (nbits w : Nat) : State := s.fetchWord nbits w

end Sys2Proof.Machine
end

