-- ==== Sys2Proof/Safety.lean ====
section
/-! DEFINITION. What holds of every reachable state (10_state.md R52, and what the rules say of the
frame reader's registers, the buffers and the configuration), and what it is for a run to have
stopped. -/

namespace Sys2Proof.Machine

/-- R52 (a), (c), (d) for one table entry, and R42: a latched serial has 18 bytes and stands exactly
when the device was created. -/
def deviceOk (d : Device) : Bool :=
  decide (d.psState = .idle)
    && (d.created || decide (d.lastSample = none ∧ d.total = none ∧ d.lastReported = none ∧ d.buf = []))
    && decide (d.created = d.serial.isSome)
    && decide (∀ bs ∈ d.serial, bs.length = 18)
    && decide (d.lastReported ≠ none → d.total ≠ none)

/-- The frame reader's registers belong together (41_frame_reader.md R160, R161, R162): with no call
in progress or in HUNT the buffer is empty; later it begins with STX and a kind byte and holds what
the bytes still needed leave; every phase past HUNT has taken a byte. -/
def readerOk (r : Reader) : Bool :=
  match r.phase with
  | .idle => decide (r.cb = [] ∧ r.need = 0)
  | .hunt => decide (r.cb = [] ∧ r.need = 0)
  | .kind => decide (r.cb = [STX] ∧ r.need = 0) && r.consumed
  | .hdr =>
    decide (r.cb.length + r.need = 4 ∧ 1 ≤ r.need ∧ r.need ≤ 2) && check1 r.cb && check2 r.cb
      && r.consumed
  | .body =>
    decide (r.cb.length + r.need = lengthByte r.cb + 7 ∧ 1 ≤ r.need ∧ 4 ≤ r.cb.length)
      && check1 r.cb && check2 r.cb && r.consumed

/-- The invariant of every reachable state: R52 (a) to (d) and (g), the reader's registers, the sizes
of CB and TB (20_memory.md R60), a record that is empty or complete (43_telemetry_codec.md R212), and
a frozen configuration that is well formed (R31, R341). R52 (b), `fr.phase = IDLE` between iterations,
is the conjunct that the phase is IDLE in every state of a run: before a run FR's operations can be
given one at a time (log 1). R52 (e) and (f) are `State.Ordered`. -/
def State.inv (s : State) : Bool :=
  s.devs.all deviceOk
    && readerOk s.fr
    && bufferWf s.fr.cb
    && bufferWf s.tb
    && (decide (s.record = []) || recordComplete s.record)
    && (!s.loop.fatal || s.loop.halted)
    && (!s.running || (configOk s.cfg s.devs && decide (s.fr.phase = .idle)))

/-- The invariant as a proposition. -/
abbrev State.Inv (s : State) : Prop := s.inv = true

/-- R52 (e) and (f), with what they rest on while `now` never decreases: every buffer is in time order,
no time stamp lies ahead of `now`, and an accepted sample is covered by the traffic stamp. -/
structure State.Ordered (s : State) : Prop where
  buffers : ∀ d ∈ s.devs, (d.buf.map (·.t)).Pairwise (· ≤ ·) ∧ ∀ x ∈ d.buf, x.t ≤ s.env.now
  traffic : ∀ u ∈ s.clk.lastTraffic, u ≤ s.env.now
  samples : ∀ d ∈ s.devs, ∀ v ∈ d.lastSample, ∃ u ∈ s.clk.lastTraffic, v ≤ u

/-- Whether what is given next is a move the spec's host has (R322): it is no unit operation. In a run
the model has no other (log 1). -/
def State.HostMove (s : State) : Prop :=
  s.running = true ∨ ∀ bs rest i, s.env.inbox = .op bs :: rest → s.fetchOperation bs = .instr i →
    performer i = .host ∨ performer i = .bus

/-- Whether the block is between iterations: no reader call is in progress (R52 (b)). -/
abbrev State.BetweenIterations (s : State) : Prop := s.fr.phase = .idle

/-- Whether the block can take a frame in hand: it is not halted, the configuration values written are
ones the rules hold for, and it is between iterations (R287, R341; log 20). -/
abbrev State.CanReceive (s : State) : Prop :=
  s.loop.halted = false ∧ valuesOk s.cfg s.devs = true ∧ s.fr.phase = .idle

/-- Whether the block can run an iteration: it is not halted, its configuration is written and well
formed, and it is between iterations (R280, R287, R341). -/
abbrev State.CanRun (s : State) : Prop :=
  s.loop.halted = false ∧ configOk s.cfg s.devs = true ∧ s.fr.phase = .idle

/-! ### Terms the statements use -/

/-- A sequence of instructions, one after the other, up to the first that does not answer a next
state. -/
def execAll : List Instr → State → Host.Outcome State Fault Refusal
  | [], s => .next s
  | i :: is, s =>
    match exec i s with
    | .next t => execAll is t
    | .fault r => .fault r
    | .refused r => .refused r

/-- The operations of the rest of a reader call, one per event until one returns a result, and the
events left: FR.BYTE in the row the registers select, FR.TIMEOUT, FR.FAULT (R150). Past the listed
events the read window passes with no byte, and FR.TIMEOUT ends the call (DEDUCED, log 6). -/
def readerOps : List InEvent → State → Host.Outcome State Fault Refusal × List InEvent
  | [], s => (exec .frTimeout s, [])
  | e :: es, s =>
    match exec (eventInstr s.fr e) s with
    | .next t =>
      match t.result with
      | .reader _ => (.next t, es)
      | _ => readerOps es t
    | o => (o, es)

/-- A byte sequence with bit `k` of the byte at offset `q` flipped (42_frame_validator.md R191). -/
def flipBit (f : List Byte) (q k : Nat) : List Byte := f.set q (byteAt f q ^^^ (1#8 <<< k))

/-- Byte-by-byte xor of two sequences (40_crc16.md R138). -/
def xorBytes (m n : List Byte) : List Byte := List.zipWith (· ^^^ ·) m n

/-- One bit step of the right-shifting form of the CRC (R137). -/
def crcRightBit (poly r : Word16) : Word16 :=
  if r.getLsbD 0 then (r >>> 1) ^^^ reflect16 poly else r >>> 1

/-- One byte of the right-shifting form: the byte enters the low 8 bits (R137). -/
def crcRightByte (poly r : Word16) (b : Byte) : Word16 := (crcRightBit poly)^[8] (r ^^^ b.setWidth 16)

/-- The register of the right-shifting form after a sequence (R137). -/
def crcRightAcc (p : CrcParams) (s : List Byte) : Word16 :=
  s.foldl (crcRightByte p.poly) (reflect16 p.init)

/-- The right-shifting form of the CRC (R137). -/
def crcRightForm (p : CrcParams) (s : List Byte) : Word16 := crcRightAcc p s ^^^ p.xorout

/-- The CRC bytes that close a frame with this kind, address and PAYLOAD (30_encoding.md R96). -/
def frameCrc (p : CrcParams) (kind id : Byte) (payload : List Byte) : Word16 :=
  crc16 p ([kind, id, BitVec.ofNat 8 payload.length] ++ payload)

/-- The table of 20_memory.md R72: the record's names with their offset in the frame and their
width, written out. -/
def frameOffsets : List (FieldName × Nat × Nat) :=
  [(.ascii .partNumber, 6, 11), (.ascii .serialNumber, 17, 18),
   (.u8 .fw1Major, 41, 1), (.u8 .fw1Minor, 42, 1), (.u8 .fw2Major, 45, 1), (.u8 .fw2Minor, 46, 1),
   (.u8 .fw3Major, 49, 1), (.u8 .fw3Minor, 50, 1),
   (.u16 .ac1V, 53, 2), (.u16 .ac1I, 55, 2), (.u16 .ac1P, 57, 2), (.u16 .ac1F1, 59, 2),
   (.u16 .ac1F2, 61, 2), (.u16 .ac1V2, 63, 2), (.u16 .ac2V, 65, 2), (.u16 .ac2I, 67, 2),
   (.u16 .ac2P, 69, 2), (.u16 .ac2F1, 71, 2), (.u16 .ac2F2, 73, 2), (.u16 .ac2V2, 75, 2),
   (.u16 .ac3V, 77, 2), (.u16 .ac3I, 79, 2), (.u16 .ac3P, 81, 2), (.u16 .ac3F1, 83, 2),
   (.u16 .ac3F2, 85, 2), (.u16 .ac3V2, 87, 2), (.u16 .dc1V, 89, 2), (.u16 .dc1I, 91, 2),
   (.u16 .dc1P, 93, 2), (.u16 .dc2V, 95, 2), (.u16 .dc2I, 97, 2), (.u16 .dc2P, 99, 2),
   (.u16 .acPower, 101, 2), (.raw32 .unknown1, 103, 4), (.u32 .dayEnergy, 107, 4),
   (.u32 .feedInTime, 111, 4), (.u32 .totalEnergy, 115, 4), (.raw32 .unknown2, 119, 4),
   (.u16 .temperature, 123, 2)]

/-- The value of a name from the bytes of its field (43_telemetry_codec.md R206 to R210). -/
def fieldValue (cfg : Config) : FieldName → List Byte → FieldValue
  | .ascii _, bs => .str bs
  | .u8 _, bs => .plain (be bs)
  | .u16 f, bs => .meas (be bs) (scaleOf cfg (.u16 f)).exp (scaleOf cfg (.u16 f)).unit
  | .u32 f, bs => .meas (be bs) (scaleOf cfg (.u32 f)).exp (scaleOf cfg (.u32 f)).unit
  | .raw32 _, bs => .raw (be bs)

end Sys2Proof.Machine
end

