-- ==== Sys2Proof/Certificates/Slice0/Obligations.lean ====
section
/-! DEFINITION. The statements for the provers, one definition each, in the order of
OBLIGATIONS.json. A next state is written as the state before with the fields that change, so that a
statement says the frame too. The field `result` is what the operation returns (00_scope.md R14); that
it is held in the state is the model's choice (log 10), and so are the trace (log 11) and the refusals'
names. -/

open Sys2Proof Sys2Proof.Machine

/-! ### Reset -/

/-- R51: the values the spec gives for reset; the two intervals are held as settings in seconds
(log 19), and the device table is empty until the host writes it (log 13). -/
def Obligations.ResetLeavesTheSpecValues : Prop :=
  State.reset.cfg.sampleInterval = .sec 60 ∧ State.reset.cfg.logInterval = .sec 600
    ∧ State.reset.fr = ⟨.idle, [], 0, false⟩ ∧ State.reset.tb = [] ∧ State.reset.record = []
    ∧ State.reset.clk = ⟨none, none⟩
    ∧ State.reset.loop.halted = false ∧ State.reset.loop.fatal = false
    ∧ ∀ id, Device.reset id = ⟨id, .idle, none, false, none, [], none, none⟩

/-- R52 at reset. -/
def Obligations.ResetStateMeetsTheInvariant : Prop :=
  State.reset.Inv ∧ State.reset.Ordered

/-- R340: RESET between iterations. That it clears the device table is the model's choice (log 13),
and what it leaves of the environment log 5. -/
def Obligations.ResetOperationRestoresResetValues : Prop :=
  ∀ s : State,
    (s.fr.phase = .idle →
      ∃ t, exec .reset s = .next t
        ∧ t.fr = ⟨.idle, [], 0, false⟩ ∧ t.tb = [] ∧ t.record = [] ∧ t.clk = ⟨none, none⟩
        ∧ t.loop.halted = false ∧ t.loop.fatal = false ∧ t.running = false ∧ t.devs = []
        ∧ t.cfg.sampleInterval = .sec 60 ∧ t.cfg.logInterval = .sec 600
        ∧ t.cfg.crc = s.cfg.crc ∧ t.env = s.env)
    ∧ (s.fr.phase ≠ .idle → exec .reset s = .refused .midIteration)

/-! ### Decoding, encoding, stepping -/

/-- R90, R99, R112: decoding what the encoder writes gives the instruction back, for every
well-formed instruction. The operand bytes of operations are the model's (log 2). -/
def Obligations.DecodeOfEncodeIsTheInstruction : Prop :=
  ∀ i : Instr, i.wf = true → decode i.space i.frRow (encode i) = .instr i

/-- R99, R116: on the bytes of a well-formed frame, the first row of the frame map that fits is the
row of its constructor. -/
def Obligations.FirstFittingFrameRowIsTheConstructors : Prop :=
  ∀ i : Instr, i.wf = true → i.space = .frame → frameRowOf (encode i) = i.frameRow

/-- Words written out from R90, R100 and R112. The clause on `[0x21, 0x60]` rests on the model's choice
too: R112 gives the code 0x21, and that the operand stands behind it is log 2. -/
def Obligations.SpecWordsDecode : Prop :=
  decode .frame .hunt [0x02#8, 0x05#8, 0x01#8, 0x02#8, 0x60#8, 0x01#8, 0x85#8, 0xFC#8, 0x03#8]
      = .instr (.frameReqTelemetry 1#8 0xFC85#16 0x03#8)
    ∧ decode .frame .hunt [0x02#8, 0x06#8, 0x01#8, 0x00#8, 0xE1#8, 0x91#8, 0x03#8]
      = .instr (.frameReplyOther 1#8 [] 0x91E1#16 0x03#8)
    ∧ decode .operation .hunt [0x01#8] = .instr .run
    ∧ decode .operation .body [0x21#8, 0x60#8] = .instr (.frByteBody 0x60#8)
    ∧ decode .operation .hunt [0x04#8] = .reject (.unknownOpsel 0x04#8)

/-- A step takes the next item, and an operation or frame it holds is executed as decoded, in the
state without that item; with no item the step changes nothing (R344; log 5). FATAL is never taken, for
RUN alone invokes it (R288). An operation of the block's own units is not taken in a run (R50, R322), nor,
FR's apart, while a reader call is in progress (R281); a frame is not taken by itself in a run (R344). That
operations and frames are taken by themselves at all, and the refusals' names, are the model's (log 1, 4,
24, 35). -/
def Obligations.StepRunsTheDecodedInstruction : Prop :=
  (∀ (s : State) (i : Instr) (bs : List Byte) (rest : List HostItem),
      (s.env.inbox = .op bs :: rest ∧ decode .operation ((selectRow s.fr).getD .hunt) bs = .instr i)
        ∨ (s.env.inbox = .frame bs :: rest ∧ decode .frame .hunt bs = .instr i) →
      step s
        = if performer i = .host then exec i { s with env := { s.env with inbox := rest } }
          else if performer i = .loop then .refused .fatalByHost
          else if s.running = true then
            .refused (if performer i = .bus then .frameInRun else .unitOperation)
          else if performer i = .fr ∨ performer i = .bus ∨ s.fr.phase = .idle then
            exec i { s with env := { s.env with inbox := rest } }
          else .refused .readerBusy)
    ∧ ∀ s : State, s.env.inbox = [] → step s = .next s

/-! ### CRC -/

/-- R131. -/
def Obligations.CrcResetLoadsTheInitialValue : Prop :=
  ∀ s : State, exec .crcReset s = .next { s with crcAcc := s.cfg.crc.init, result := .nothing }

/-- R132: the eight steps, written out. -/
def Obligations.CrcByteMakesEightSteps : Prop :=
  ∀ (s : State) (b : Byte),
    let bit := fun a : Word16 => if a.getLsbD 15 then (a <<< 1) ^^^ s.cfg.crc.poly else a <<< 1
    let d := if s.cfg.crc.refin then reflect8 b else b
    let a := s.crcAcc ^^^ ((d.setWidth 16) <<< 8)
    exec (.crcByte b) s
      = .next { s with crcAcc := bit (bit (bit (bit (bit (bit (bit (bit a)))))))
                       result := .nothing }

/-- R134. -/
def Obligations.CrcValueReflectsAndXors : Prop :=
  ∀ s : State,
    exec .crcValue s
      = .next { s with result := .word ((if s.cfg.crc.refout then reflect16 s.crcAcc else s.crcAcc)
                                          ^^^ s.cfg.crc.xorout) }

/-- R133: CRC.BLOCK answers what CRC.RESET, CRC.BYTE of every byte in ascending order, and CRC.VALUE
answer. -/
def Obligations.CrcBlockIsResetBytesValue : Prop :=
  ∀ (s : State) (bytes : List Byte),
    ∃ t, exec (.crcBlock bytes) s = .next t
      ∧ execAll ([.crcReset] ++ bytes.map .crcByte ++ [.crcValue]) s = .next t
      ∧ t = { s with crcAcc := t.crcAcc, result := .word (crc16 s.cfg.crc bytes) }

/-- R135: the comparison of the computed and the transmitted CRC; on a shorter sequence the rule gives
nothing and the model refuses. -/
def Obligations.CrcCheckComparesAllSixteenBits : Prop :=
  ∀ (s : State) (c : List Byte) (len : Nat),
    (len + 7 ≤ c.length →
      ∃ acc, exec (.crcCheck c len) s
        = .next { s with
            crcAcc := acc
            result :=
              if crc16 s.cfg.crc ((c.drop 1).take (len + 3))
                  = BitVec.ofNat 16 ((c.getD (4 + len) 0#8).toNat + 256 * (c.getD (5 + len) 0#8).toNat)
              then .crcMatch
              else .crcMismatch (crc16 s.cfg.crc ((c.drop 1).take (len + 3)))
                (BitVec.ofNat 16
                  ((c.getD (4 + len) 0#8).toNat + 256 * (c.getD (5 + len) 0#8).toNat)) })
    ∧ (c.length < len + 7 → exec (.crcCheck c len) s = .refused .shortSequence)

/-- R136. -/
def Obligations.ReflectionsReverseTheBits : Prop :=
  (∀ (b : Byte) (i : Nat), i < 8 → (reflect8 b).getLsbD i = b.getLsbD (7 - i))
    ∧ (∀ (v : Word16) (i : Nat), i < 16 → (reflect16 v).getLsbD i = v.getLsbD (15 - i))
    ∧ (∀ b : Byte, reflect8 (reflect8 b) = b) ∧ (∀ v : Word16, reflect16 (reflect16 v) = v)
    ∧ reflect8 0x01#8 = 0x80#8 ∧ reflect8 0x05#8 = 0xA0#8
    ∧ reflect16 0x8005#16 = 0xA001#16 ∧ reflect16 0x0001#16 = 0x8000#16

/-- R137: the right-shifting form computes the same function, and its register is the reflected
accumulator at every byte boundary. -/
def Obligations.RightShiftingCrcIsTheCrc : Prop :=
  ∀ (p : CrcParams) (s : List Byte), p.refin = true → p.refout = true →
    crcRightForm p s = crc16 p s ∧ crcRightAcc p s = reflect16 (crcAccOf p s)

/-- R138. -/
def Obligations.CrcIsLinearInTheMessage : Prop :=
  ∀ (p : CrcParams) (m n : List Byte), m.length = n.length →
    crc16 p m ^^^ crc16 p n = crc16 { p with init := 0#16, xorout := 0#16 } (xorBytes m n)

/-- R139, its law: the CRC of a message closed by its own CRC bytes is zero. -/
def Obligations.CrcOfAClosedMessageIsZero : Prop :=
  ∀ (p : CrcParams) (s : List Byte), p.refin = true → p.refout = true → p.xorout = 0#16 →
    crc16 p (s ++ [loByte (crc16 p s), hiByte (crc16 p s)]) = 0#16

/-- R140: with an odd polynomial, one flipped bit changes the CRC. -/
def Obligations.FlippedBitChangesTheCrc : Prop :=
  ∀ (p : CrcParams) (m : List Byte) (q k : Nat), p.poly.getLsbD 0 = true → q < m.length → k < 8 →
    crc16 p (flipBit m q k) ≠ crc16 p m

/-! ### The frame reader -/

/-- R152. -/
def Obligations.FrStartBeginsAReaderCall : Prop :=
  ∀ s : State,
    (s.fr.phase = .idle →
      exec .frStart s = .next { s with fr := ⟨.hunt, [], 0, false⟩, result := .nothing })
    ∧ (s.fr.phase ≠ .idle → exec .frStart s = .refused .readerBusy)

/-- R153. -/
def Obligations.FrByteHuntsForStx : Prop :=
  ∀ (s : State) (b : Byte), s.fr.phase = .hunt →
    exec (.frByteHunt b) s
      = .next { s with
          fr := if b = 0x02#8 then { s.fr with consumed := true, cb := [0x02#8], phase := .kind }
                else { s.fr with consumed := true }
          result := .nothing }

/-- R154. -/
def Obligations.FrByteTakesAKindByte : Prop :=
  ∀ (s : State) (b : Byte), s.fr.phase = .kind →
    exec (.frByteKind b) s
      = .next { s with
          fr := if b = 0x05#8 ∨ b = 0x06#8 then ⟨.hdr, s.fr.cb ++ [b], 2, true⟩
                else { s.fr with consumed := true, cb := [], phase := .hunt }
          result := .nothing }

/-- R155. -/
def Obligations.FrByteTakesTheHeader : Prop :=
  ∀ (s : State) (b : Byte), s.fr.phase = .hdr →
    exec (.frByteHdr b) s
      = .next { s with
          fr := if s.fr.need - 1 = 0 then
                  ⟨.body, s.fr.cb ++ [b], ((s.fr.cb ++ [b]).getD 3 0#8).toNat + 3, true⟩
                else ⟨.hdr, s.fr.cb ++ [b], s.fr.need - 1, true⟩
          result := .nothing }

/-- R156. -/
def Obligations.FrByteTakesTheBody : Prop :=
  ∀ (s : State) (b : Byte), s.fr.phase = .body → 1 < s.fr.need →
    exec (.frByteBody b) s
      = .next { s with fr := ⟨.body, s.fr.cb ++ [b], s.fr.need - 1, true⟩, result := .nothing }

/-- R159: the candidate is handed over, the call is over; and in a state whose reader registers belong
together (`readerOk`, which EveryStepKeepsTheInvariant keeps) the candidate begins with STX and a kind
byte and has the bytes its length byte announces. -/
def Obligations.FrByteReturnsTheCandidate : Prop :=
  ∀ (s : State) (b : Byte), s.fr.phase = .body → s.fr.need = 1 →
    let f := s.fr.cb ++ [b]
    exec (.frByteLast b) s
      = .next { s with
          fr := ⟨.idle, [], 0, true⟩
          result := .reader (.candidate f) }
    ∧ (readerOk s.fr = true →
        f[0]? = some 0x02#8 ∧ (f[1]? = some 0x05#8 ∨ f[1]? = some 0x06#8)
          ∧ f.length = (f.getD 3 0#8).toNat + 7 ∧ 7 ≤ f.length ∧ f.length ≤ 262)

/-- R157, R158: a timeout and a transport fault end the call in every phase but IDLE. -/
def Obligations.TimeoutAndFaultEndTheCall : Prop :=
  ∀ s : State, s.fr.phase ≠ .idle →
    exec .frTimeout s
      = .next { s with
          fr := ⟨.idle, [], 0, s.fr.consumed⟩
          result := .reader (if s.fr.consumed then .noDataFraming else .noDataTimeout) }
    ∧ exec .frFault s
      = .next { s with fr := ⟨.idle, [], 0, s.fr.consumed⟩, result := .reader .fault }

/-- R160, U22: no input event is taken in IDLE; the refusal is the model's (log 24). -/
def Obligations.NoEventIsTakenInIdle : Prop :=
  ∀ (s : State) (b : Byte), s.fr.phase = .idle →
    ∀ i ∈ [Instr.frByteHunt b, .frByteKind b, .frByteHdr b, .frByteBody b, .frByteLast b, .frTimeout,
        .frFault],
      exec i s = .refused .noReaderCall

/-- R162, R228: a frame behind bytes that are not STX is returned whole as the candidate on its last
byte, and the events behind it are left. -/
def Obligations.FrameBehindNoiseIsReturnedWhole : Prop :=
  ∀ (noise payload : List Byte) (kind id lo hi term : Byte) (rest : List InEvent),
    (∀ b ∈ noise, b ≠ STX) → kind = ENQ ∨ kind = ACK → payload.length ≤ 255 →
    let f := [STX, kind, id, BitVec.ofNat 8 payload.length] ++ payload ++ [lo, hi, term]
    readCall ((noise ++ f).map .byte ++ rest) readerStart
      = (.candidate f, rest, ⟨.idle, [], 0, true⟩)

/-- R190: on a candidate the reader returned, only the terminator and the CRC are left to fail; and
the candidate has exactly the bytes its length byte announces (R159). -/
def Obligations.CandidatesFailOnlyByTerminatorOrCrc : Prop :=
  ∀ (events : List InEvent) (c : List Byte) (p : CrcParams) (reason : Reason),
    (readCall events readerStart).1 = .candidate c →
      c.length = lengthByte c + 7
      ∧ (validate p c = .invalid reason →
          reason = .badTerminator ∨ ∃ x y, reason = .crcMismatch x y)

/-! ### The validator -/

/-- R180 to R187: the first check that fails gives the verdict, and the classification follows. -/
def Obligations.ValidateGivesTheFirstFailure : Prop :=
  ∀ (s : State) (f : List Byte),
    let len := (f.getD 3 0#8).toNat
    let computed := crc16 s.cfg.crc ((f.drop 1).take (len + 3))
    let transmitted :=
      BitVec.ofNat 16 ((f.getD (4 + len) 0#8).toNat + 256 * (f.getD (5 + len) 0#8).toNat)
    ∃ acc, exec (.fvValidate f) s
      = .next { s with
          crcAcc := acc
          result := .verdict
            (if f[0]? ≠ some 0x02#8 then .invalid .badStart
             else if f[1]? ≠ some 0x05#8 ∧ f[1]? ≠ some 0x06#8 then .invalid .badKind
             else if f.length < 4 ∨ f.length < len + 7 then .invalid .incomplete
             else if f[6 + len]? ≠ some 0x03#8 then .invalid .badTerminator
             else if computed ≠ transmitted then .invalid (.crcMismatch computed transmitted)
             else if f[1]? = some 0x05#8 then .validRequest (header f)
             else .validReply (header f)) }

/-- R188: the nine fields; on a sequence that fails check 3 the rule gives nothing and the model
refuses. -/
def Obligations.HeaderHoldsItsNineFields : Prop :=
  ∀ (s : State) (c : List Byte),
    let len := (c.getD 3 0#8).toNat
    (4 ≤ c.length ∧ len + 7 ≤ c.length →
      exec (.fvHeader c) s
        = .next { s with
            result := .header
              { kind := c.getD 1 0#8, deviceId := c.getD 2 0#8, length := len, payloadOff := 4,
                payloadEnd := 4 + len, dataOff := 6, dataLen := if 2 ≤ len then len - 2 else 0,
                command := if 2 ≤ len then some (c.getD 4 0#8) else none,
                subcommand := if 2 ≤ len then some (c.getD 5 0#8) else none } })
    ∧ (¬(4 ≤ c.length ∧ len + 7 ≤ c.length) → exec (.fvHeader c) s = .refused .noHeader)

/-- R192: what the encoder builds validates as a request with the same deviceId and PAYLOAD, for
every value of the CRC parameters. -/
def Obligations.EncodedRequestsValidate : Prop :=
  ∀ (p : CrcParams) (id : Byte) (cmd : List Byte), id ≠ 0#8 → cmd.length ≤ 255 →
    ∃ hdr, validate p (encodeFrame p id cmd) = .validRequest hdr
      ∧ hdr.deviceId = id ∧ hdr.length = cmd.length
      ∧ slice (encodeFrame p id cmd) hdr.payloadOff hdr.payloadEnd = cmd

/-- R191: every row of its table but the one it leaves undetermined, and for that one the rule's
counter-example. -/
def Obligations.SingleBitFlipsAreRejected : Prop :=
  (∀ (p : CrcParams) (f : List Byte) (q k : Nat),
    p.poly.getLsbD 0 = true → f.length = lengthByte f + 7 →
    (∃ hdr, validate p f = .validRequest hdr ∨ validate p f = .validReply hdr) →
    q < f.length → k < 8 →
    let g := flipBit f q k
    (q = 0 → validate p g = .invalid .badStart)
    ∧ (q = 1 → validate p g = .invalid .badKind)
    ∧ (q = 2 → ∃ x y, validate p g = .invalid (.crcMismatch x y))
    ∧ (q = 3 → lengthByte f < lengthByte g → validate p g = .invalid .incomplete)
    ∧ (4 ≤ q → q < lengthByte f + 6 → ∃ x y, validate p g = .invalid (.crcMismatch x y))
    ∧ (q = lengthByte f + 6 → validate p g = .invalid .badTerminator))
  ∧ (let f : List Byte :=
      [0x02#8, 0x05#8, 0x01#8, 0x04#8, 0x11#8, 0x91#8, 0x03#8, 0x00#8, 0xF1#8, 0x30#8, 0x03#8]
     (∃ hdr, validate crcDefault f = .validRequest hdr ∧ hdr.length = 4)
      ∧ ∃ hdr, validate crcDefault (flipBit f 3 2) = .validRequest hdr ∧ hdr.length = 0)

/-! ### The codec -/

/-- R200, R202, R203: the command test, the length test, then the record, which stays in `rec`
(log 27); on anything but a valid reply with its own header the model refuses (R201, U25; log 25). -/
def Obligations.DecodeTestsCommandThenLength : Prop :=
  ∀ (s : State) (c : List Byte) (hdr : Header),
    (validate s.cfg.crc c = .validReply hdr →
      exec (.tcDecode c hdr) s
        = if hdr.command ≠ some 0x60#8 ∨ hdr.subcommand ≠ some 0x01#8 then
            .next { s with result := .decoded (.unexpectedCommand hdr.command hdr.subcommand) }
          else if hdr.dataLen ≠ 119 then
            .next { s with result := .decoded (.lengthMismatch hdr.dataLen) }
          else
            .next { s with record := unpackRecord s.cfg c
                           result := .decoded (.record (unpackRecord s.cfg c)) })
    ∧ (validate s.cfg.crc c ≠ .validReply hdr → exec (.tcDecode c hdr) s = .refused .notValidReply)

/-- R205, R212: a record TC.DECODE returns has all its 39 entries, in table order and of their
kinds. -/
def Obligations.DecodedRecordsAreComplete : Prop :=
  ∀ (p : CrcParams) (cfg : Config) (c : List Byte) (hdr : Header) (rec : TelemetryRecord),
    validate p c = .validReply hdr → decodeReply cfg c hdr = .record rec →
      rec.length = 39 ∧ recordComplete rec = true

/-- R72, R109, R111: every entry of the record is read at its offset, with its width. -/
def Obligations.RecordEntriesAreReadAtTheirOffsets : Prop :=
  ∀ (cfg : Config) (c : List Byte),
    unpackRecord cfg c
      = frameOffsets.map (fun e => (e.1, fieldValue cfg e.1 (slice c e.2.1 (e.2.1 + e.2.2))))

/-- R206 to R211: what each unpack operation returns; its operands are the field's bytes (log 28). -/
def Obligations.UnpackOperationsReturnTheirValues : Prop :=
  ∀ (s : State) (bs : List Byte) (b0 b1 b2 b3 : Byte) (m : U16Field) (n : U32Field),
    exec (.tcUnpackAscii bs) s = .next { s with result := .value (.str bs) }
    ∧ exec (.tcUnpackU8 b0) s = .next { s with result := .value (.plain b0.toNat) }
    ∧ exec (.tcUnpackU16 m b0 b1) s
      = .next { s with result := .value (.meas (256 * b0.toNat + b1.toNat)
                                  (scaleOf s.cfg (.u16 m)).exp (scaleOf s.cfg (.u16 m)).unit) }
    ∧ exec (.tcUnpackU32 n b0 b1 b2 b3) s
      = .next { s with result := .value (.meas
                  (16777216 * b0.toNat + 65536 * b1.toNat + 256 * b2.toNat + b3.toNat)
                  (scaleOf s.cfg (.u32 n)).exp (scaleOf s.cfg (.u32 n)).unit) }
    ∧ exec (.tcUnpackRaw32 b0 b1 b2 b3) s
      = .next { s with result := .value (.raw
                  (16777216 * b0.toNat + 65536 * b1.toNat + 256 * b2.toNat + b3.toNat)) }
    ∧ exec (.tcUnpackPad bs) s = .next { s with result := .nothing }

/-- R213: the value is the exact rational, the unit unchanged. -/
def Obligations.ScaledValuesAreExact : Prop :=
  ∀ (s : State) (raw : Nat) (exp : Int) (unit : Text),
    exec (.tcScale raw exp unit) s
      = .next { s with result := .scaled ((raw : Rat) * (10 : Rat) ^ exp) unit }

/-- R225, R226: the request's bytes inside the encoder's domain, the refusal outside it. That the
refusal emits its status at the operation is the model's choice (log 29). -/
def Obligations.EncodeBuildsTheRequestOrRefuses : Prop :=
  ∀ (s : State) (id : Byte) (cmd : List Byte),
    let body := [0x05#8, id, BitVec.ofNat 8 cmd.length] ++ cmd
    let v := crc16 s.cfg.crc body
    let frame := [0x02#8] ++ body ++ [v.setWidth 8, (v >>> 8).setWidth 8, 0x03#8]
    (id ≠ 0#8 ∧ cmd.length ≤ 255 →
      ∃ acc, exec (.tcEncode id cmd) s
        = .next { s with crcAcc := acc, tb := frame, result := .frame frame })
    ∧ (id = 0#8 ∨ 255 < cmd.length →
      exec (.tcEncode id cmd) s
        = .next { s with
            env := { s.env with trace := s.env.trace ++ [.status (.encodeRefused id cmd.length)] }
            result := .encodeRefused id cmd.length })

/-! ### The scheduler -/

/-- R240 to R243, R246, R247: on a quiet bus, one telemetry request to every due device, in
ascending device index, and nothing on a busy bus. While a reader call is in progress nothing is sent
(R63, R281), and an address 0 is ruled out (R24); that both are refusals is the model's choice (log 24,
30). -/
def Obligations.TickAsksEveryDueDevice : Prop :=
  ∀ (s : State) (t : Time),
    (s.fr.phase = .idle → addressesNonzero s.devs = true →
      let quiet := ∀ u ∈ s.clk.lastTraffic, s.cfg.ticksPerSecond ≤ t - u
      let due := fun d : Device => quiet ∧ ∀ u ∈ d.lastSample, sampleInterval s.cfg ≤ t - u
      let request := fun id : Byte =>
        let v := crc16 s.cfg.crc [0x05#8, id, 0x02#8, 0x60#8, 0x01#8]
        [0x02#8, 0x05#8, id, 0x02#8, 0x60#8, 0x01#8, loByte v, hiByte v, 0x03#8]
      ∃ acc tb, exec (.psTick t) s
        = .next { s with
            devs := s.devs.map (fun d => { d with psState := .idle })
            crcAcc := acc
            tb := tb
            env := { s.env with
                      trace := s.env.trace
                        ++ (s.devs.filter (fun d => decide (due d))).map
                          (fun d => .tx (request d.id)) }
            result := .nothing })
    ∧ (s.fr.phase ≠ .idle → exec (.psTick t) s = .refused .readerBusy)
    ∧ (s.fr.phase = .idle → addressesNonzero s.devs = false →
        exec (.psTick t) s = .refused .badConfig)

/-- R244: the write of the traffic stamp (that nothing else writes it is
TraceGrowsAndTransmissionIsNoTraffic). -/
def Obligations.NoteTrafficWritesTheTimeStamp : Prop :=
  ∀ (s : State) (t : Time),
    exec (.psNoteTraffic t) s
      = .next { s with clk := { s.clk with lastTraffic := some t }, result := .nothing }

/-- R250 (a): an iteration whose reader call took a byte, or lost the transport, transmits nothing. And
R63, R343: no step transmits while a reader call is in progress, and none but PS.TICK, by itself
(log 1) or in RUN. -/
def Obligations.NothingIsSentInAReceivingIteration : Prop :=
  (∀ s t : State, 1 ≤ s.cfg.ticksPerSecond → s.loop.halted = false → exec .run s = .next t →
    (readCall s.env.rx readerStart).1 ≠ .noDataTimeout →
    ∃ es, t.env.trace = s.env.trace ++ es ∧ ∀ bs, OutEvent.tx bs ∉ es)
  ∧ ∀ s t : State, step s = .next t →
    ∃ es, t.env.trace = s.env.trace ++ es
      ∧ ((∀ bs, OutEvent.tx bs ∉ es)
        ∨ (s.fr.phase = .idle ∧ ∃ bs rest, s.env.inbox = .op bs :: rest
            ∧ (s.fetchOperation bs = .instr .run ∨ ∃ u, s.fetchOperation bs = .instr (.psTick u))))

/-! ### The accumulator -/

/-- R260 to R263, R270: creation, gate, sample, total, full buffer, for a complete record and a device
of the table (log 26). -/
def Obligations.AcceptCreatesGatesAndStores : Prop :=
  ∀ (s : State) (i : Nat) (rec : TelemetryRecord) (t : Time) (d : Device),
    s.devs[i]? = some d → recordComplete rec = true →
    ∃ serial raw exp unit,
      rec.lookup (.ascii .serialNumber) = some (.str serial)
      ∧ rec.lookup (.u32 .totalEnergy) = some (.meas raw exp unit)
      ∧ (let due := ∀ u ∈ d.lastSample, sampleInterval s.cfg ≤ t - u
         let room := ∀ cap ∈ s.cfg.bufCap, d.buf.length < cap
         let sample : Sample :=
          ⟨t, s.cfg.sampleFields.filterMap (fun n => (rec.lookup n).map (fun v => (n, v)))⟩
         let d1 := if d.created then d else { d with created := true, serial := some serial }
         let d2 := if due then
            { d1 with lastSample := some t, total := some (1000 * raw),
                      buf := if room then d.buf ++ [sample] else d.buf }
          else d1
         let init : List OutEvent :=
          if d.created = false ∧ s.cfg.reporterPresent = true then [.reportInit i (some serial)] else []
         let st : Status :=
          if due then (if room then .sampleStored i else .bufferOverflow i) else .sampleGated i
         exec (.saAccept i rec t) s
          = .next { s with
              devs := s.devs.set i d2
              env := { s.env with trace := s.env.trace ++ init ++ [.status st] }
              result := .nothing })

/-- R264 to R266, R268, R309, for every list of answers: device `i`'s persist call, when it is made, is
answered `p i` and its report call `r i`, which are the answers listed, in the order of the calls, and
`Ok` past the list (the model's choice, log 7). In ascending index a created device's buffer goes out
and is emptied exactly on `Ok`; then, whatever became of that, a total that changed is offered and
noted exactly on `Ok`, or noted at once with no reporter. -/
def Obligations.FlushDrainsAndReports : Prop :=
  ∀ (s : State) (t : Time), ∃ p r : Nat → Answer,
    let persists := fun d : Device => d.created && !d.buf.isEmpty
    let changed := fun d : Device => d.created && d.total.isSome && decide (d.lastReported ≠ d.total)
    let calls := s.devs.zipIdx.flatMap (fun e =>
      (if persists e.1 = true then [p e.2] else [])
        ++ (if changed e.1 = true ∧ s.cfg.reporterPresent = true then [r e.2] else []))
    calls = (s.env.answers ++ List.replicate calls.length Answer.ok).take calls.length
    ∧ exec (.saFlush t) s
      = .next { s with
          devs := s.devs.zipIdx.map (fun e =>
            { e.1 with
              buf := if persists e.1 = true ∧ p e.2 = .ok then [] else e.1.buf
              lastReported :=
                if changed e.1 = true ∧ (s.cfg.reporterPresent = true → r e.2 = .ok) then e.1.total
                else e.1.lastReported })
          clk := { s.clk with lastFlush := some t }
          env := { s.env with
                    answers := s.env.answers.drop calls.length
                    trace := s.env.trace ++ s.devs.zipIdx.flatMap (fun e =>
                      (if persists e.1 = true then
                        .persist e.2 e.1.serial e.1.buf
                          :: (if p e.2 = .ok then [] else [.status (.persistFailed e.2)])
                      else [])
                      ++ match e.1.total with
                        | none => []
                        | some w =>
                          if changed e.1 = true ∧ s.cfg.reporterPresent = true then
                            .reportTotal e.2 w
                              :: (if r e.2 = .ok then [] else [.status (.reportFailed e.2)])
                          else []) }
          result := .nothing }

/-- R265, R266, R268, R309, when every collaborator call is answered `Fail`: the buffers are kept and
the totals stay unreported, one status each, and the flush goes on to its end. With no reporter the
failed persist step does not keep `lastReported` from following the total. -/
def Obligations.FailedFlushKeepsBuffersAndTotals : Prop :=
  ∀ (s : State) (t : Time),
    (∀ a ∈ s.env.answers, a = .fail) → 2 * s.devs.length ≤ s.env.answers.length →
    ∃ left, exec (.saFlush t) s
      = .next { s with
          devs := s.devs.map (fun d =>
            if d.created = true ∧ d.total ≠ none ∧ s.cfg.reporterPresent = false then
              { d with lastReported := d.total }
            else d)
          clk := { s.clk with lastFlush := some t }
          env := { s.env with
                    answers := left
                    trace := s.env.trace ++ s.devs.zipIdx.flatMap (fun e =>
                      if e.1.created then
                        (if e.1.buf = [] then []
                         else [.persist e.2 e.1.serial e.1.buf, .status (.persistFailed e.2)])
                          ++ (match e.1.total with
                              | none => []
                              | some w =>
                                if s.cfg.reporterPresent = true ∧ e.1.lastReported ≠ some w then
                                  [.reportTotal e.2 w, .status (.reportFailed e.2)]
                                else [])
                      else []) }
          result := .nothing }

/-- R265, R267, R309, for every list of answers: in ascending index each created device with a buffer
that is not empty has it handed over whole, emptied exactly on `Ok`, and reported as PersistFailed
exactly on `Fail`; nothing else is put out, no total is reported and `lastReported` is not written.
Device `i`'s call is answered `p i`: the answers listed, in the order of the calls, and `Ok` past the
list (the model's choice, log 7). -/
def Obligations.FinalFlushReportsNothing : Prop :=
  ∀ (s : State) (t : Time), ∃ p : Nat → Answer,
    let persists := fun d : Device => d.created && !d.buf.isEmpty
    let calls := s.devs.zipIdx.flatMap (fun e => if persists e.1 = true then [p e.2] else [])
    calls = (s.env.answers ++ List.replicate calls.length Answer.ok).take calls.length
    ∧ exec (.saFinalFlush t) s
      = .next { s with
          devs := s.devs.zipIdx.map (fun e =>
            { e.1 with buf := if persists e.1 = true ∧ p e.2 = .ok then [] else e.1.buf })
          clk := { s.clk with lastFlush := some t }
          env := { s.env with
                    answers := s.env.answers.drop calls.length
                    trace := s.env.trace ++ s.devs.zipIdx.flatMap (fun e =>
                      if persists e.1 = true then
                        .persist e.2 e.1.serial e.1.buf
                          :: (if p e.2 = .ok then [] else [.status (.persistFailed e.2)])
                      else []) }
          result := .nothing }

/-! ### Frames -/

/-- R186, R227, R285: a valid request is reported and ignored, and counts as traffic. That a frame given
by itself is what steps 2, 4 and 5 of an iteration do with it is the model's choice (log 4), here and in
the next three statements. -/
def Obligations.ValidRequestsAreReportedAndIgnored : Prop :=
  ∀ (s : State) (id : Byte) (payload : List Byte) (i : Instr), s.CanReceive → payload.length ≤ 255 →
    (i = .frameReq id payload (frameCrc s.cfg.crc ENQ id payload) ETX
      ∨ (i = .frameReqTelemetry id (frameCrc s.cfg.crc ENQ id payload) ETX
          ∧ payload = [0x60#8, 0x01#8])) →
    ∃ acc, exec i s
      = .next { s with
          crcAcc := acc
          clk := { s.clk with lastTraffic := some s.env.now }
          loop := { s.loop with t := s.env.now }
          env := { s.env with trace := s.env.trace ++ [.status (.validRequest id)] }
          result := .nothing }

/-- R200, R269, R285: a valid telemetry reply is decoded; from a configured address it is put out as a
raw record and accepted as SA.ACCEPT accepts it, from another it is dropped with UnknownDevice. -/
def Obligations.TelemetryRepliesAreDecodedAndDelivered : Prop :=
  ∀ (s : State) (id : Byte) (data : List Byte), s.CanReceive → data.length = 119 →
    let crc := frameCrc s.cfg.crc ACK id ([0x60#8, 0x01#8] ++ data)
    let record := unpackRecord s.cfg (frameBytes ACK id ([0x60#8, 0x01#8] ++ data) crc ETX)
    ∃ acc t, exec (.frameReplyTelemetry id data crc ETX) s = .next t
      ∧ (let base : State :=
          { s with
              crcAcc := acc
              record := []
              clk := { s.clk with lastTraffic := some s.env.now }
              loop := { s.loop with t := s.env.now }
              result := .nothing }
         match devIndex s.devs id with
         | none =>
           t = { base with
                  env := { s.env with trace := s.env.trace ++ [.status (.unknownDevice id)] } }
         | some k =>
           exec (.saAccept k record s.env.now)
             { base with env := { s.env with trace := s.env.trace ++ [.record k record] } } = .next t)

/-- R202, R203, R285, R314: a valid reply to another command, or of another length, is discarded with
its own status. -/
def Obligations.OtherRepliesAreDiscardedByName : Prop :=
  ∀ (s : State) (id : Byte) (payload : List Byte), s.CanReceive → payload.length ≤ 255 →
    let next := fun (acc : Word16) (st : Status) =>
      Host.Outcome.next (φ := Fault) (ρ := Refusal)
        { s with
          crcAcc := acc
          clk := { s.clk with lastTraffic := some s.env.now }
          loop := { s.loop with t := s.env.now }
          env := { s.env with trace := s.env.trace ++ [.status st] }
          result := .nothing }
    (payload.take 2 ≠ [0x60#8, 0x01#8] →
      ∃ acc, exec (.frameReplyOther id payload (frameCrc s.cfg.crc ACK id payload) ETX) s
        = next acc (.unexpectedCommand id
            (if 2 ≤ payload.length then payload[0]? else none)
            (if 2 ≤ payload.length then payload[1]? else none)))
    ∧ (payload.take 2 = [0x60#8, 0x01#8] → payload.length ≠ 121 →
      ∃ acc,
        exec (.frameReplyBadlen id (payload.drop 2) (frameCrc s.cfg.crc ACK id payload) ETX) s
          = next acc (.decodeLengthMismatch id (payload.length - 2)))

/-- R184, R185, R187, R314: a frame of any row with a wrong last byte, or with the right one and a
wrong CRC, is discarded with its status; nothing but the traffic note, the time stamp and scratch
changes. -/
def Obligations.DamagedFramesAreDiscarded : Prop :=
  ∀ (s : State) (i : Instr) (reason : Reason), s.CanReceive → i.wf = true → i.space = .frame →
    validate s.cfg.crc (encode i) = .invalid reason →
    (reason = .badTerminator ∨ ∃ x y, reason = .crcMismatch x y)
    ∧ ∃ acc, exec i s
      = .next { s with
          crcAcc := acc
          clk := { s.clk with lastTraffic := some s.env.now }
          loop := { s.loop with t := s.env.now }
          env := { s.env with trace := s.env.trace ++ [.status (reasonStatus reason)] }
          result := .nothing }

/-! ### The loop -/

/-- R280 to R285, R288: RUN is the reader call on the events waiting, then FATAL on a fault, and
otherwise the traffic note and the frame in hand (a candidate is the frame instruction its bytes
decode to), PS.TICK, and SA.FLUSH when it is due. The reader call is FR.START and then FR.BYTE,
FR.TIMEOUT or FR.FAULT, one per event, until one returns a result (R150). The model's choices in it: an
iteration is one step (log 9), a frame by itself is what the loop does with it (log 4), and a list
that ends without ending the call is a silent line (log 6). -/
def Obligations.RunTakesItsStepsInOrder : Prop :=
  (∀ (s : State) (events : List InEvent), s.fr.phase = .idle →
    let call := readCall events readerStart
    ∃ s0, exec .frStart s = .next s0
      ∧ readerOps events s0
        = (.next { s with fr := call.2.2, result := .reader call.1 }, call.2.1))
  ∧ ∀ s : State, s.CanRun →
    let call := readCall s.env.rx readerStart
    let now := s.env.now
    let s1 : State :=
      { s with
        running := true
        fr := call.2.2
        loop := { s.loop with t := now }
        env := { s.env with rx := call.2.1 } }
    let rest := fun v : State =>
      ∃ u, exec (.psTick now) v = .next u
        ∧ exec .run s
          = if ∀ f ∈ s.clk.lastFlush, logInterval s.cfg ≤ now - f then exec (.saFlush now) u
            else .next u
    match call.1 with
    | .fault => exec .run s = exec .fatal s1
    | .noDataTimeout =>
      rest { s1 with env := { s1.env with trace := s.env.trace ++ [.status .noDataTimeout] } }
    | .noDataFraming =>
      rest { s1 with
              clk := { s.clk with lastTraffic := some now }
              env := { s1.env with trace := s.env.trace ++ [.status .noDataFraming] } }
    | .candidate c =>
      ∃ i v, decode .frame .hunt c = .instr i ∧ exec i s1 = .next v ∧ rest v

/-- R161, R280, R282: a block that can run completes its iteration, between iterations again, with
the time stamped and the configuration frozen. -/
def Obligations.RunCompletesItsIteration : Prop :=
  ∀ s : State, s.CanRun →
    ∃ t, exec .run s = .next t ∧ t.fr.phase = .idle ∧ t.fr.cb = [] ∧ t.loop.t = s.env.now
      ∧ t.running = true ∧ t.cfg = s.cfg ∧ t.env.rx = (readCall s.env.rx readerStart).2.1
      ∧ (t.loop.halted = true ↔ (readCall s.env.rx readerStart).1 = .fault)

/-- R287, R286, U23: in a halted block RUN, SHUTDOWN and frames change nothing (frames: log 4, 23). -/
def Obligations.HaltedBlockDoesNothing : Prop :=
  ∀ (s : State) (i : Instr), s.loop.halted = true →
    i = .run ∨ i = .shutdown ∨ i.space = .frame → exec i s = .next s

/-- R286: the time stamp, the final flush, the stop, the status, between iterations. -/
def Obligations.ShutdownFlushesAndHalts : Prop :=
  ∀ s : State, s.loop.halted = false → s.fr.phase = .idle →
    ∃ u, exec (.saFinalFlush s.env.now) { s with loop := { s.loop with t := s.env.now } } = .next u
      ∧ exec .shutdown s
        = .next { u with
            loop := { u.loop with halted := true }
            env := { u.env with trace := u.env.trace ++ [.status .shutdownDone] } }

/-- R288: the final flush at `loop.t`, the stop, the status. RUN invokes it after its time stamp
(RunTakesItsStepsInOrder; log 35). -/
def Obligations.FatalFlushesAndHalts : Prop :=
  ∀ s : State,
    ∃ u, exec (.saFinalFlush s.loop.t) s = .next u
      ∧ exec .fatal s
        = .next { u with
            loop := { u.loop with halted := true, fatal := true }
            env := { u.env with trace := u.env.trace ++ [.status .fatal] } }

/-! ### The whole machine -/

/-- R52 (a) to (d), (g): every step keeps the invariant; (e) and (f) are
IterationsKeepTimeStampsOrdered. -/
def Obligations.EveryStepKeepsTheInvariant : Prop :=
  ∀ s t : State, s.Inv → step s = .next t → t.Inv

/-- R52 (e), (f): while `now` does not decrease, every step keeps the samples in time order and every
accepted sample covered by the traffic stamp: an iteration, SHUTDOWN, RESET, a frame, a configuration
write and the environment's inputs. In a run no other step exists (R322); before a run the model takes
unit operations by themselves, which the spec's host has not got (log 1). -/
def Obligations.IterationsKeepTimeStampsOrdered : Prop :=
  (∀ (s t : State) (i : Instr), performer i = .host ∨ performer i = .bus → s.Ordered →
    exec i s = .next t → t.Ordered ∧ t.env.now = s.env.now)
  ∧ ∀ s t : State, s.Ordered → s.HostMove → step s = .next t → s.env.now ≤ t.env.now →
    t.Ordered

/-- R286, R288, R289: only SHUTDOWN, and RUN whose reader call ends with Fault, which invokes FATAL, stop
the block; FATAL given as an item of its own is refused in every state. -/
def Obligations.OnlyShutdownAndFatalStopTheBlock : Prop :=
  ∀ s t : State, s.loop.halted = false → step s = .next t → t.loop.halted = true →
    ∃ bs rest, s.env.inbox = .op bs :: rest
      ∧ (s.fetchOperation bs = .instr .shutdown
        ∨ (s.fetchOperation bs = .instr .run ∧ (readCall s.env.rx readerStart).1 = .fault))

/-- R22, R31, U20: no step changes the CRC parameters; once a run has begun, no step but RESET changes
any configuration value or address, and a configuration write is refused. Before it, a write changes
the one value it names and nothing else, and a write to an entry of SCALE the source fixes (R110) is
refused; the refusals, how a write of N_DEV resizes the table, and that a RUN a halted block ignores
begins no run, are the model's choice (log 21, 40). -/
def Obligations.ConfigurationIsFrozenDuringARun : Prop :=
  ∀ s : State,
    (∀ t, step s = .next t → t.cfg.crc = s.cfg.crc)
    ∧ (s.running = true → ∀ t, step s = .next t →
        (t.running = true ∧ t.cfg = s.cfg ∧ t.devs.map (·.id) = s.devs.map (·.id))
        ∨ ∃ bs rest, s.env.inbox = .op bs :: rest ∧ s.fetchOperation bs = .instr .reset)
    ∧ (s.running = true → ∀ w rest, s.env.inbox = .cfg w :: rest →
        step s = .refused .configFrozen)
    ∧ (s.running = false → ∀ w rest, s.env.inbox = .cfg w :: rest →
        let s0 : State := { s with env := { s.env with inbox := rest } }
        match w with
        | .nDev n =>
          step s = .next { s0 with
            devs := s.devs.take n ++ List.replicate (n - s.devs.length) (Device.reset 0#8) }
        | .devId i id =>
          (∀ d, s.devs[i]? = some d →
            step s = .next { s0 with devs := s.devs.set i { d with id := id } })
          ∧ (s.devs.length ≤ i → step s = .refused (.noDevice i))
        | .ticksPerSecond n => step s = .next { s0 with cfg := { s.cfg with ticksPerSecond := n } }
        | .sampleInterval t =>
          ∃ c, step s = .next { s0 with cfg := { s.cfg with sampleInterval := c } }
            ∧ sampleInterval { s.cfg with sampleInterval := c } = t
        | .logInterval t =>
          ∃ c, step s = .next { s0 with cfg := { s.cfg with logInterval := c } }
            ∧ logInterval { s.cfg with logInterval := c } = t
        | .reporterPresent b => step s = .next { s0 with cfg := { s.cfg with reporterPresent := b } }
        | .scale name exp unit =>
          if name = .u16 .ac1V ∨ name = .u32 .feedInTime ∨ name = .u32 .totalEnergy then
            step s = .refused .fixedParameter
          else
            ∃ c, step s = .next { s0 with cfg := { s.cfg with scale := c } }
              ∧ ∀ n, scaleOf { s.cfg with scale := c } n
                = if n = name then ⟨exp, unit⟩ else scaleOf s.cfg n
        | .sampleFields names => step s = .next { s0 with cfg := { s.cfg with sampleFields := names } }
        | .bufCap cap => step s = .next { s0 with cfg := { s.cfg with bufCap := cap } }
        | .readTimeout t => step s = .next { s0 with cfg := { s.cfg with readTimeout := t } })

/-- R39, R42, R44, R261, R272: outside SA.ACCEPT, and RUN and FRAME.REPLY.TELEMETRY that contain it,
no operation but RESET creates a device or moves a sample time, a total or a serial. -/
def Obligations.OnlyAcceptMovesSampleTimes : Prop :=
  ∀ (i : Instr) (s t : State), exec i s = .next t →
    i = .reset ∨ i = .run ∨ (∃ k rec u, i = .saAccept k rec u)
      ∨ (∃ id data crc term, i = .frameReplyTelemetry id data crc term)
      ∨ t.devs.map (fun d => (d.id, d.created, d.serial, d.lastSample, d.total))
          = s.devs.map (fun d => (d.id, d.created, d.serial, d.lastSample, d.total))

/-- R15, R40, R244, R249: no step takes back an output event, and no operation writes the traffic
stamp but PS.NOTE_TRAFFIC, RUN, the frames and RESET; a transmission does not. -/
def Obligations.TraceGrowsAndTransmissionIsNoTraffic : Prop :=
  (∀ s t : State, step s = .next t → s.env.trace <+: t.env.trace)
    ∧ ∀ (i : Instr) (s t : State), exec i s = .next t →
        i = .reset ∨ i = .run ∨ (∃ u, i = .psNoteTraffic u) ∨ i.space = .frame
          ∨ t.clk.lastTraffic = s.clk.lastTraffic

/-- R301: the 19 codes in the table's order, and no code twice. -/
def Obligations.StatusCodesAreTheTables : Prop :=
  (∀ (i n : Nat) (b : Byte) (x y : Word16) (cm sc : Option Byte),
    ([.noDataTimeout, .noDataFraming, .badStart, .badKind, .incomplete, .badTerminator,
        .crcMismatch x y, .validRequest b, .unexpectedCommand b cm sc, .decodeLengthMismatch b n,
        .unknownDevice b, .sampleStored i, .sampleGated i, .bufferOverflow i, .persistFailed i,
        .reportFailed i, .encodeRefused b n, .shutdownDone, .fatal] : List Status).map statusCode
      = [0x00#8, 0x01#8, 0x10#8, 0x11#8, 0x12#8, 0x13#8, 0x14#8, 0x20#8, 0x21#8, 0x22#8, 0x23#8,
         0x24#8, 0x25#8, 0x26#8, 0x30#8, 0x31#8, 0x32#8, 0x40#8, 0x41#8])
    ∧ [0x00#8, 0x01#8, 0x10#8, 0x11#8, 0x12#8, 0x13#8, 0x14#8, 0x20#8, 0x21#8, 0x22#8, 0x23#8,
       0x24#8, 0x25#8, 0x26#8, 0x30#8, 0x31#8, 0x32#8, 0x40#8, 0x41#8].Nodup
end

