-- ==== Sys2Proof/Laws/Operands.lean ====
section
/-! SUPPORT. One lemma per operand form: reading what was written gives it back with the rest; and
the frame bytes read back by position. -/

namespace Sys2Proof

open Sys2Proof.Machine

theorem getNat_putNatFuel (fuel n : Nat) (h : n ≤ fuel) (r : List Byte) :
    getNat (putNatFuel fuel n ++ r) = some (n, r) := by
  induction fuel generalizing n with
  | zero =>
    obtain rfl : n = 0 := by omega
    simp [putNatFuel, getNat]
  | succ k ih =>
    unfold putNatFuel
    split
    · next hn =>
      have h1 : n % 256 = n := Nat.mod_eq_of_lt (by omega)
      simp [getNat, h1, hn]
    · next hn =>
      have h1 : (n % 128 + 128) % 256 = n % 128 + 128 := Nat.mod_eq_of_lt (by omega)
      have h2 : ¬ n % 128 + 128 < 128 := by omega
      simp only [List.cons_append, getNat, BitVec.toNat_ofNat, Nat.reducePow, h1, h2, if_false]
      rw [ih (n / 128) (by omega)]
      simp only [Option.some.injEq, Prod.mk.injEq, and_true]
      omega

theorem getNat_putNat (n : Nat) (r : List Byte) : getNat (putNat n ++ r) = some (n, r) :=
  getNat_putNatFuel n n (Nat.le_refl n) r

theorem getInt_putInt (k : Int) (r : List Byte) : getInt (putInt k ++ r) = some (k, r) := by
  cases k with
  | ofNat n =>
    have h : 2 * n % 2 = 0 := by omega
    have h' : 2 * n / 2 = n := by omega
    simp [putInt, getInt, getNat_putNat]
  | negSucc n =>
    have h : (2 * n + 1) % 2 = 1 := by omega
    have h' : (2 * n + 1) / 2 = n := by omega
    simp [putInt, getInt, getNat_putNat, h']

theorem getSeq_putSeq (s r : List Byte) : getSeq (putSeq s ++ r) = some (s, r) := by
  simp [putSeq, getSeq, getNat_putNat]

theorem getOptByte_putOptByte (o : Option Byte) (r : List Byte) :
    getOptByte (putOptByte o ++ r) = some (o, r) := by
  cases o <;> simp [putOptByte, getOptByte]

theorem getName_putName {α : Type} [DecidableEq α] (names : List α) (n : α) (r : List Byte)
    (hn : n ∈ names) (hl : names.length ≤ 256) : getName names (putName names n ++ r) = some (n, r) := by
  have h := List.idxOf_lt_length_of_mem hn
  have h1 : names.idxOf n % 256 = names.idxOf n := Nat.mod_eq_of_lt (by omega)
  simp [putName, getName, h1, List.getElem?_eq_getElem h]

theorem getValue_putValue (v : FieldValue) (r : List Byte) :
    getValue (putValue v ++ r) = some (v, r) := by
  cases v with
  | str s => simp [putValue, getValue, getSeq_putSeq]
  | plain n => simp [putValue, getValue, getNat_putNat]
  | meas n e u => simp [putValue, getValue, getNat_putNat, getInt_putInt, getSeq_putSeq]
  | raw n => simp [putValue, getValue, getNat_putNat]

theorem mem_fieldNames (n : FieldName) : n ∈ fieldNames := by
  cases n <;> rename_i f <;> cases f <;> decide

theorem mem_u16Names (n : U16Field) : n ∈ u16Names := by cases n <;> decide

theorem mem_u32Names (n : U32Field) : n ∈ u32Names := by cases n <;> decide

theorem getEntry_putEntry (e : FieldName × FieldValue) (r : List Byte) :
    getEntry (putEntry e ++ r) = some (e, r) := by
  obtain ⟨n, v⟩ := e
  simp [putEntry, getEntry, getName_putName fieldNames n _ (mem_fieldNames n) (by decide),
    getValue_putValue]

/-- Items written one behind the other are read back, for any form that reads back what it writes. -/
theorem getMany_flatten {α : Type} (get : List Byte → Option (α × List Byte)) (put : α → List Byte)
    (h : ∀ a r, get (put a ++ r) = some (a, r)) (as : List α) (r : List Byte) :
    getMany get as.length ((as.map put).flatten ++ r) = some (as, r) := by
  induction as with
  | nil => simp [getMany]
  | cons a as ih => simp [getMany, h, ih]

theorem getRecord_putRecord (rec : TelemetryRecord) (r : List Byte) :
    getRecord (putRecord rec ++ r) = some (rec, r) := by
  simp [getRecord, putRecord, getNat_putNat, getMany_flatten getEntry putEntry getEntry_putEntry]

theorem getHeader_putHeader (h : Header) (r : List Byte) :
    getHeader (putHeader h ++ r) = some (h, r) := by
  simp [putHeader, getHeader, getByte, getNat_putNat, getOptByte_putOptByte]

/-! ### Frame bytes -/

theorem le16_loByte_hiByte (v : Word16) : le16 (loByte v) (hiByte v) = v := by
  apply BitVec.eq_of_getLsbD_eq
  intro i hi
  simp only [le16, loByte, hiByte, BitVec.getLsbD_append, BitVec.getLsbD_extractLsb']
  by_cases h : i < 8
  · simp [h]
  · have h1 : i - 8 < 8 := by omega
    have h2 : 8 + (i - 8) = i := by omega
    simp [h, h1, h2]

theorem frameBytes_length (kind id : Byte) (payload : List Byte) (crc : Word16) (term : Byte) :
    (frameBytes kind id payload crc term).length = payload.length + 7 := by
  simp [frameBytes]

/-- A frame written as R90 lays it out is read back as the row of its kind and PAYLOAD. -/
theorem decodeFrame_frameBytes (kind id : Byte) (payload : List Byte) (crc : Word16) (term : Byte)
    (hk : kind = ENQ ∨ kind = ACK) (hl : payload.length ≤ 255) :
    decodeFrame (frameBytes kind id payload crc term)
      = .instr (if kind = ENQ then requestRow id payload crc term
                else replyRow id payload crc term) := by
  have h1 : payload.length % 256 = payload.length := Nat.mod_eq_of_lt (by omega)
  have hk' : ¬(¬kind = ENQ ∧ ¬kind = ACK) := by tauto
  simp only [frameBytes, List.cons_append, List.nil_append, decodeFrame, ne_eq, not_true, if_false,
    hk', BitVec.toNat_ofNat, Nat.reducePow, h1]
  rw [List.drop_left' rfl, List.take_left' rfl]
  simp only [le16_loByte_hiByte]
  split <;> rfl

end Sys2Proof
end

