-- ==== Sys2Proof/Laws/Ops.lean ====
section
/-! SUPPORT. What the shared operations over the state can do, said once each: the comparisons of time,
the answers, the device table, the loop's gate, one step. -/

namespace Sys2Proof.Machine

/-! ### Comparisons of time -/

theorem trafficQuiet_iff (cfg : Config) (clk : Clock) (t : Time) :
    trafficQuiet cfg clk t = true ↔ ∀ u ∈ clk.lastTraffic, cfg.ticksPerSecond ≤ t - u := by
  unfold trafficQuiet
  cases clk.lastTraffic <;> simp [trafficFloor, sec, elapsed]

theorem sampleDue_iff (cfg : Config) (d : Device) (t : Time) :
    sampleDue cfg d t = true ↔ ∀ u ∈ d.lastSample, sampleInterval cfg ≤ t - u := by
  unfold sampleDue
  cases d.lastSample with
  | none => simp
  | some u =>
    simp [elapsed]
    exact decide_eq_true_iff

theorem flushDue_iff (cfg : Config) (clk : Clock) (t : Time) :
    flushDue cfg clk t = true ↔ ∀ u ∈ clk.lastFlush, logInterval cfg ≤ t - u := by
  unfold flushDue
  cases clk.lastFlush with
  | none => simp
  | some u =>
    simp [elapsed]
    exact decide_eq_true_iff

theorem bufferHasRoom_iff (cfg : Config) (buf : List Sample) :
    bufferHasRoom cfg buf = true ↔ ∀ cap ∈ cfg.bufCap, buf.length < cap := by
  unfold bufferHasRoom
  cases cfg.bufCap <;> simp

/-- In the iteration that noted traffic the bus is busy (44_poll_scheduler.md R250). -/
theorem trafficQuiet_of_now (cfg : Config) (clk : Clock) (t : Time) (h : clk.lastTraffic = some t)
    (h1 : 1 ≤ cfg.ticksPerSecond) : trafficQuiet cfg clk t = false := by
  rw [Bool.eq_false_iff, ne_eq, trafficQuiet_iff]
  intro hq
  have h2 := hq t (by rw [h]; rfl)
  have h3 : t - t = 0 := Nat.sub_self t
  omega

/-! ### Answers -/

theorem takeAnswer_ok (as : List Answer) (h : ∀ a ∈ as, a = .ok) :
    ∃ left, takeAnswer as = (.ok, left) ∧ ∀ a ∈ left, a = .ok := by
  cases as with
  | nil => exact ⟨[], rfl, h⟩
  | cons a as =>
    obtain rfl : a = .ok := h a (by simp)
    exact ⟨as, rfl, fun b hb => h b (by simp [hb])⟩

theorem takeAnswer_fail (as : List Answer) (n : Nat) (h : ∀ a ∈ as, a = .fail)
    (hl : n + 1 ≤ as.length) :
    ∃ left, takeAnswer as = (.fail, left) ∧ (∀ a ∈ left, a = .fail) ∧ n ≤ left.length := by
  cases as with
  | nil => simp at hl
  | cons a as =>
    obtain rfl : a = .fail := h a (by simp)
    exact ⟨as, rfl, fun b hb => h b (by simp [hb]), by simpa using hl⟩

theorem takeAnswer_snd (as : List Answer) : (takeAnswer as).2 = as.drop 1 := by cases as <;> rfl

/-- The answers `n` calls take, `Ok` past the list (log 7): the next one, then those of the rest. -/
theorem answersTaken_succ (n : Nat) (as : List Answer) :
    (as ++ List.replicate (n + 1) Answer.ok).take (n + 1)
      = (takeAnswer as).1 :: (as.drop 1 ++ List.replicate n Answer.ok).take n := by
  cases as with
  | nil => simp [takeAnswer, List.replicate_succ]
  | cons a as => simp [takeAnswer, List.replicate_succ', ← List.append_assoc]

theorem answersTaken_add (a b : Nat) (as : List Answer) :
    (as ++ List.replicate (a + b) Answer.ok).take (a + b)
      = (as ++ List.replicate a Answer.ok).take a
        ++ (as.drop a ++ List.replicate b Answer.ok).take b := by
  induction a generalizing as with
  | zero => simp
  | succ a ih =>
    rw [show a + 1 + b = (a + b) + 1 by omega, answersTaken_succ, answersTaken_succ, ih]
    simp

/-! ### The device table -/

theorem devIndex_lt (devs : List Device) (id : Byte) (k : Nat) (h : devIndex devs id = some k) :
    k < devs.length := by
  unfold devIndex at h
  rw [List.findIdx?_eq_some_iff_getElem] at h
  exact h.1

/-- The checks of the addresses look at the addresses only. -/
theorem addressesNonzero_of_ids (ds es : List Device) (h : ds.map (·.id) = es.map (·.id)) :
    addressesNonzero ds = addressesNonzero es := by
  have key : ∀ l : List Device, addressesNonzero l = (l.map (·.id)).all (fun x => !(x == 0#8)) := by
    intro l
    simp [addressesNonzero, List.all_map, Function.comp_def]
  rw [key, key, h]

theorem configOk_of_ids (cfg : Config) (ds es : List Device) (h : ds.map (·.id) = es.map (·.id)) :
    configOk cfg ds = configOk cfg es := by
  have hl : ds.length = es.length := by simpa using congrArg List.length h
  have he : ds.isEmpty = es.isEmpty := by
    cases ds <;> cases es <;> simp at hl ⊢
  unfold configOk valuesOk
  rw [addressesNonzero_of_ids ds es h, h, he]

theorem State.CanRun.canReceive {s : State} (h : s.CanRun) : s.CanReceive := by
  refine ⟨h.1, ?_, h.2.2⟩
  have h2 := h.2.1
  simp only [configOk, Bool.and_eq_true] at h2
  exact h2.2

theorem addressesNonzero_of_valuesOk (cfg : Config) (devs : List Device)
    (h : valuesOk cfg devs = true) : addressesNonzero devs = true := by
  simp only [valuesOk, Bool.and_eq_true] at h
  exact h.1.1.1

/-! ### The loop's gate, and a step -/

/-- What a frame or RUN can do: nothing when the block is halted, its effect when it may, or a
refusal. -/
theorem inLoop_next (s t : State) (ok : Bool) (k : State → State) (h : s.inLoop ok k = .next t) :
    (s.loop.halted = true ∧ t = s)
      ∨ (s.loop.halted = false ∧ ok = true ∧ s.fr.phase = .idle ∧ t = k s) := by
  unfold State.inLoop at h
  cases hh : s.loop.halted
  · cases ok
    · simp [hh] at h
    · by_cases hp : s.fr.phase = .idle
      · simp only [hh, hp] at h
        exact Or.inr ⟨rfl, rfl, hp, by simpa using h.symm⟩
      · simp [hh, hp] at h
  · simp only [hh, if_true, Host.Outcome.next.injEq] at h
    exact Or.inl ⟨rfl, h.symm⟩

theorem inLoop_of_canReceive (s : State) (k : State → State) (h : s.CanReceive) :
    s.inLoop (valuesOk s.cfg s.devs) k = .next (k s) := by
  obtain ⟨h1, h2, h3⟩ := h
  simp [State.inLoop, h1, h2, h3]

/-- What can be given by itself: the host's operations, and before a run the units' operations, of which
only FR's while a reader call is in progress, and frames; FATAL never (R281, R288, R322, R344). -/
theorem portRefusal_eq_none_iff (s : State) (i : Instr) :
    s.portRefusal i = none
      ↔ performer i = .host
        ∨ s.running = false ∧ performer i ≠ .loop
          ∧ (performer i = .fr ∨ performer i = .bus ∨ s.fr.phase = .idle) := by
  unfold State.portRefusal
  cases performer i <;> cases s.running <;> by_cases hp : s.fr.phase = .idle <;> simp [hp]

/-- An instruction that was given and answers a next state was one that can be given, and executed. -/
theorem perform_next (s t : State) (i : Instr) (h : s.perform i = .next t) :
    s.portRefusal i = none ∧ exec i s = .next t := by
  unfold State.perform at h
  cases hr : s.portRefusal i with
  | none => exact ⟨rfl, by simpa [hr] using h⟩
  | some r => simp [hr] at h

/-- An operation item that answers a next state was taken by the port and executed as decoded. -/
theorem stepItem_op_next (s t : State) (bs : List Byte) (h : stepItem s (.op bs) = .next t) :
    ∃ i, s.fetchOperation bs = .instr i ∧ s.portRefusal i = none ∧ exec i s = .next t := by
  simp only [stepItem] at h
  cases hd : s.fetchOperation bs with
  | reject e => simp [hd] at h
  | instr i => exact ⟨i, rfl, perform_next s t i (by simpa [hd] using h)⟩

/-- A frame item that answers a next state was taken before a run and executed as decoded. -/
theorem stepItem_frame_next (s t : State) (bs : List Byte) (h : stepItem s (.frame bs) = .next t) :
    ∃ i, s.fetchFrame bs = .instr i ∧ s.portRefusal i = none ∧ exec i s = .next t := by
  simp only [stepItem] at h
  cases hd : s.fetchFrame bs with
  | reject e => simp [hd] at h
  | instr i => exact ⟨i, rfl, perform_next s t i (by simpa [hd] using h)⟩

/-- What a step can do: nothing when nothing is given, and otherwise what the first item does. -/
theorem step_next (s t : State) (h : step s = .next t) :
    (s.env.inbox = [] ∧ t = s)
      ∨ ∃ item items, s.env.inbox = item :: items ∧ stepItem (s.setInbox items) item = .next t := by
  unfold step at h
  cases hi : s.env.inbox with
  | nil =>
    simp only [hi, Host.Outcome.next.injEq] at h
    exact Or.inl ⟨rfl, h.symm⟩
  | cons item items =>
    simp only [hi] at h
    exact Or.inr ⟨item, items, rfl, h⟩

end Sys2Proof.Machine
end

