-- ==== Sys2Proof/Laws/Accumulator.lean ====
section
/-! SUPPORT. What accepting a record and flushing can do to a device, to the table and to the answers,
said once each. -/

namespace Sys2Proof.Machine

/-! ### Complete records -/

/-- A complete record has an entry of the right form for every name (R212). -/
theorem lookup_of_recordComplete (rec : TelemetryRecord) (h : recordComplete rec = true)
    (n : FieldName) : ∃ v, rec.lookup n = some v ∧ valueFits n v = true := by
  simp only [recordComplete, Bool.and_eq_true, decide_eq_true_eq, List.all_eq_true] at h
  obtain ⟨hn, hv⟩ := h
  have hm : n ∈ rec.map (·.1) := by rw [hn]; exact mem_fieldNames n
  clear hn
  induction rec with
  | nil => simp at hm
  | cons e es ih =>
    obtain ⟨m, v⟩ := e
    by_cases hmn : n = m
    · subst hmn
      exact ⟨v, by simp [List.lookup], hv (n, v) (by simp)⟩
    · have hes : n ∈ es.map (·.1) := by simpa [hmn] using hm
      obtain ⟨w, hw⟩ := ih (fun e he => hv e (by simp [he])) hes
      exact ⟨w, by simp [List.lookup, beq_eq_false_iff_ne.2 hmn, hw.1], hw.2⟩

theorem serialOf_spec (rec : TelemetryRecord) (h : recordComplete rec = true) :
    rec.lookup (.ascii .serialNumber) = some (.str (serialOf rec)) ∧ (serialOf rec).length = 18 := by
  obtain ⟨v, h1, h2⟩ := lookup_of_recordComplete rec h (.ascii .serialNumber)
  cases v <;> simp [valueFits] at h2
  simp [serialOf, h1, h2]

theorem totalOf_spec (rec : TelemetryRecord) (h : recordComplete rec = true) :
    ∃ raw exp unit, rec.lookup (.u32 .totalEnergy) = some (.meas raw exp unit)
      ∧ totalOf rec = 1000 * raw := by
  obtain ⟨v, h1, h2⟩ := lookup_of_recordComplete rec h (.u32 .totalEnergy)
  cases v <;> simp [valueFits] at h2
  exact ⟨_, _, _, h1, by simp [totalOf, h1]⟩

/-! ### Accepting -/

/-- The device after its creation step (R260). -/
theorem createDevice_spec (cfg : Config) (i : Nat) (rec : TelemetryRecord) (d : Device) :
    createDevice cfg i rec d
      = (if d.created then d else { d with created := true, serial := some (serialOf rec) },
         if d.created = false ∧ cfg.reporterPresent = true then
           [.reportInit i (some (serialOf rec))]
         else []) := by
  unfold createDevice
  cases d.created <;> simp

/-- The device and the events of the gate (R260, R261, R263, R270). -/
theorem storeSample_spec (cfg : Config) (i : Nat) (rec : TelemetryRecord) (t : Time) (d : Device) :
    storeSample cfg i rec t d
      = (if sampleDue cfg d t then
           { d with lastSample := some t, total := some (totalOf rec),
                    buf := if bufferHasRoom cfg d.buf then d.buf ++ [sampleOf cfg rec t] else d.buf }
         else d,
         [.status (if sampleDue cfg d t then
             (if bufferHasRoom cfg d.buf then .sampleStored i else .bufferOverflow i)
           else .sampleGated i)]) := by
  unfold storeSample
  cases sampleDue cfg d t <;> cases bufferHasRoom cfg d.buf <;> simp

theorem acceptDevice_id (cfg : Config) (i : Nat) (rec : TelemetryRecord) (t : Time) (d : Device) :
    (acceptDevice cfg i rec t d).1.id = d.id := by
  simp only [acceptDevice, createDevice_spec, storeSample_spec]
  split <;> split <;> rfl

/-- SA.ACCEPT writes the device table and the trace, and no address. -/
theorem accept_spec (s : State) (i : Nat) (rec : TelemetryRecord) (t : Time) :
    ∃ ds es, s.accept i rec t = (s.setDevs ds).emit es ∧ ds.map (·.id) = s.devs.map (·.id) := by
  unfold State.accept
  cases hd : s.devs[i]? with
  | none => exact ⟨s.devs, [], by simp [State.setDevs, State.emit], rfl⟩
  | some d =>
    refine ⟨_, _, rfl, ?_⟩
    apply List.ext_getElem?
    intro k
    simp only [List.getElem?_map, List.getElem?_set]
    by_cases hk : i = k
    · subst hk
      have hi : i < s.devs.length := (List.getElem?_eq_some_iff.1 hd).1
      have hd' : s.devs[i] = d := (List.getElem?_eq_some_iff.1 hd).2
      simp [hi, hd', acceptDevice_id]
    · simp [hk]

/-! ### Flushing -/

/-- The persist step: the buffer is kept, or handed over whole and emptied (R265). -/
theorem persistStep_spec (i : Nat) (d : Device) (as : List Answer) :
    (d.buf = [] ∧ persistStep i d as = ⟨d, [], as⟩)
      ∨ (d.buf ≠ [] ∧ (takeAnswer as).1 = .ok ∧ persistStep i d as
          = ⟨{ d with buf := [] }, [.persist i d.serial d.buf], (takeAnswer as).2⟩)
      ∨ (d.buf ≠ [] ∧ (takeAnswer as).1 = .fail ∧ persistStep i d as
          = ⟨d, [.persist i d.serial d.buf, .status (.persistFailed i)], (takeAnswer as).2⟩) := by
  unfold persistStep
  by_cases hb : d.buf = []
  · exact Or.inl ⟨hb, by simp [hb]⟩
  · rcases hta : takeAnswer as with ⟨a, left⟩
    cases a
    · exact Or.inr (Or.inl ⟨hb, rfl, by simp [hb]⟩)
    · exact Or.inr (Or.inr ⟨hb, rfl, by simp [hb]⟩)

/-- The report step: the total is not reported when it is unchanged, and its success is noted
(R266). -/
theorem reportStep_spec (cfg : Config) (i : Nat) (d : Device) (as : List Answer) :
    ((d.total = none ∨ d.lastReported = d.total) ∧ reportStep cfg i d as = ⟨d, [], as⟩)
      ∨ ∃ w, d.total = some w ∧ d.lastReported ≠ some w
          ∧ ((cfg.reporterPresent = false
              ∧ reportStep cfg i d as = ⟨{ d with lastReported := some w }, [], as⟩)
            ∨ (cfg.reporterPresent = true ∧ (takeAnswer as).1 = .ok ∧ reportStep cfg i d as
                = ⟨{ d with lastReported := some w }, [.reportTotal i w], (takeAnswer as).2⟩)
            ∨ (cfg.reporterPresent = true ∧ (takeAnswer as).1 = .fail ∧ reportStep cfg i d as
                = ⟨d, [.reportTotal i w, .status (.reportFailed i)], (takeAnswer as).2⟩)) := by
  unfold reportStep
  cases ht : d.total with
  | none => exact Or.inl ⟨Or.inl rfl, rfl⟩
  | some w =>
    by_cases hr : d.lastReported = some w
    · exact Or.inl ⟨Or.inr hr, by simp [hr]⟩
    · refine Or.inr ⟨w, rfl, hr, ?_⟩
      cases hp : cfg.reporterPresent
      · exact Or.inl ⟨rfl, by simp [hr]⟩
      · rcases hta : takeAnswer as with ⟨a, left⟩
        cases a
        · exact Or.inr (Or.inl ⟨rfl, rfl, by simp [hr]⟩)
        · exact Or.inr (Or.inr ⟨rfl, rfl, by simp [hr]⟩)

/-- What a flush can do to a device: it empties the buffer or keeps it, and it may move
`lastReported` to the total. -/
theorem flushDevice_dev (cfg : Config) (report : Bool) (i : Nat) (d : Device) (as : List Answer) :
    ∃ buf lr, (flushDevice cfg report i d as).dev = { d with buf := buf, lastReported := lr }
      ∧ (buf = d.buf ∨ buf = [] ∧ d.created = true)
      ∧ (lr = d.lastReported ∨ lr = d.total ∧ d.total ≠ none) := by
  unfold flushDevice
  by_cases hc : d.created = true
  swap
  · rw [if_neg hc]
    exact ⟨d.buf, d.lastReported, rfl, Or.inl rfl, Or.inl rfl⟩
  have hp : ∃ buf, (persistStep i d as).dev = { d with buf := buf }
      ∧ (buf = d.buf ∨ buf = [] ∧ d.created = true) := by
    rcases persistStep_spec i d as with ⟨-, e⟩ | ⟨-, -, e⟩ | ⟨-, -, e⟩
    · exact ⟨d.buf, by rw [e], Or.inl rfl⟩
    · exact ⟨[], by rw [e], Or.inr ⟨rfl, hc⟩⟩
    · exact ⟨d.buf, by rw [e], Or.inl rfl⟩
  obtain ⟨buf, hp, hb⟩ := hp
  rw [if_pos hc]
  cases report
  · exact ⟨buf, d.lastReported, hp, hb, Or.inl rfl⟩
  · simp only [if_true]
    rw [hp]
    rcases reportStep_spec cfg i { d with buf := buf } (persistStep i d as).answers with
      ⟨-, e⟩ | ⟨w, hw, -, ⟨-, e⟩ | ⟨-, -, e⟩ | ⟨-, -, e⟩⟩ <;> rw [e]
    · exact ⟨buf, d.lastReported, rfl, hb, Or.inl rfl⟩
    · exact ⟨buf, some w, rfl, hb, Or.inr ⟨hw.symm, by simp [show d.total = some w from hw]⟩⟩
    · exact ⟨buf, some w, rfl, hb, Or.inr ⟨hw.symm, by simp [show d.total = some w from hw]⟩⟩
    · exact ⟨buf, d.lastReported, rfl, hb, Or.inl rfl⟩

/-- What a flush leaves of each device of the table, in place. -/
theorem flushFrom_devs (cfg : Config) (report : Bool) (i : Nat) (ds : List Device)
    (as : List Answer) :
    (flushFrom cfg report i ds as).1.length = ds.length
      ∧ ∀ d' ∈ (flushFrom cfg report i ds as).1, ∃ d ∈ ds, ∃ k as', d' = (flushDevice cfg report k d as').dev := by
  induction ds generalizing i as with
  | nil => simp [flushFrom]
  | cons d ds ih =>
    simp only [flushFrom, List.length_cons, List.mem_cons]
    refine ⟨by rw [(ih _ _).1], ?_⟩
    rintro d' (rfl | h)
    · exact ⟨d, Or.inl rfl, i, as, rfl⟩
    · obtain ⟨e, he, k, as', h⟩ := (ih _ _).2 d' h
      exact ⟨e, Or.inr he, k, as', h⟩

/-- A flush keeps everything of the table but buffers and reported totals. -/
theorem flushFrom_keeps (cfg : Config) (report : Bool) (i : Nat) (ds : List Device)
    (as : List Answer) :
    (flushFrom cfg report i ds as).1.map
        (fun d => (d.id, d.psState, d.created, d.serial, d.lastSample, d.total))
      = ds.map (fun d => (d.id, d.psState, d.created, d.serial, d.lastSample, d.total)) := by
  induction ds generalizing i as with
  | nil => rfl
  | cons d ds ih =>
    obtain ⟨buf, lr, h, -, -⟩ := flushDevice_dev cfg report i d as
    simp only [flushFrom, List.map_cons, ih, h]

/-- No flush transmits. -/
theorem flushDevice_noTx (cfg : Config) (report : Bool) (i : Nat) (d : Device) (as : List Answer)
    (bs : List Byte) : OutEvent.tx bs ∉ (flushDevice cfg report i d as).events := by
  have hp : OutEvent.tx bs ∉ (persistStep i d as).events := by
    rcases persistStep_spec i d as with ⟨-, e⟩ | ⟨-, -, e⟩ | ⟨-, -, e⟩ <;> simp [e]
  have hr : ∀ d as, OutEvent.tx bs ∉ (reportStep cfg i d as).events := by
    intro d as
    rcases reportStep_spec cfg i d as with ⟨-, e⟩ | ⟨w, -, -, ⟨-, e⟩ | ⟨-, -, e⟩ | ⟨-, -, e⟩⟩ <;>
      simp [e]
  unfold flushDevice
  cases d.created
  · simp
  · cases report
    · simpa using hp
    · simp [hp, hr]

theorem flushFrom_noTx (cfg : Config) (report : Bool) (i : Nat) (ds : List Device)
    (as : List Answer) (bs : List Byte) :
    OutEvent.tx bs ∉ (flushFrom cfg report i ds as).2.1 := by
  induction ds generalizing i as with
  | nil => simp [flushFrom]
  | cons d ds ih => simp [flushFrom, flushDevice_noTx, ih]

/-- A flush writes the device table, the answers left, the trace and `clk.lastFlush`. -/
theorem flush_spec (s : State) (report : Bool) (t : Time) :
    ∃ ds left es, s.flush report t = (((s.setDevs ds).setAnswers left).emit es).setLastFlush t
      ∧ ds.map (·.id) = s.devs.map (·.id) ∧ ∀ bs, OutEvent.tx bs ∉ es := by
  refine ⟨_, _, _, rfl, ?_, flushFrom_noTx _ _ _ _ _⟩
  have h := congrArg (List.map (fun e => e.1)) (flushFrom_keeps s.cfg report 0 s.devs s.env.answers)
  simpa [List.map_map, Function.comp_def] using h

end Sys2Proof.Machine
end

