-- ==== Sys2Proof/Laws/Buffers.lean ====
section
/-! SUPPORT. The laws of the two byte buffers (00_scope.md R13; 20_memory.md R64, R65): what is read
after a write, that both builders append, and that every write the block makes keeps the buffer's
size. -/

namespace Sys2Proof.Machine

theorem slice_length (s : List Byte) (a b : Nat) : (slice s a b).length = min b s.length - a := by
  simp [slice]

theorem crcRange_eq (c : List Byte) (len : Nat) : crcRange c len = (c.drop 1).take (len + 3) := by
  simp only [crcRange, slice, List.drop_take]
  congr 1
  omega

/-- A write at the end of a buffer appends. -/
theorem memWrite_end (buf v : List Byte) : memWrite buf buf.length v = buf ++ v := by
  simp [memWrite]

/-- Reading where a write inside or at the end of a buffer went gives what was written. -/
theorem memRead_memWrite (buf : List Byte) (off : Nat) (v : List Byte) (h : off ≤ buf.length) :
    memRead (memWrite buf off v) off v.length = v := by
  have h1 : (buf.take off).length = off := by simp [h]
  simp only [memRead, memWrite, slice, List.append_assoc]
  rw [List.drop_take, List.drop_left' h1]
  simp

/-- A write leaves every offset outside it alone. -/
theorem byteAt_memWrite_other (buf : List Byte) (off i : Nat) (v : List Byte) (h : off ≤ buf.length)
    (hi : i < off ∨ off + v.length ≤ i) : byteAt (memWrite buf off v) i = byteAt buf i := by
  have h1 : (buf.take off).length = off := by simp [h]
  simp only [byteAt, memWrite, List.getD_eq_getElem?_getD]
  rcases hi with hi | hi
  · rw [List.append_assoc, List.getElem?_append_left (by omega), List.getElem?_take, if_pos hi]
  · rw [List.getElem?_append_right (by simp; omega), List.getElem?_drop]
    congr 2
    simp only [List.length_append, h1]
    omega

theorem byteAt_memWrite_mem (buf : List Byte) (off i : Nat) (v : List Byte) (h : off ≤ buf.length)
    (hi : off ≤ i) (hi' : i < off + v.length) :
    byteAt (memWrite buf off v) i = byteAt v (i - off) := by
  have h1 : (buf.take off).length = off := by simp [h]
  simp only [byteAt, memWrite, List.getD_eq_getElem?_getD]
  rw [List.getElem?_append_left (by simp; omega), List.getElem?_append_right (by omega), h1]

theorem memWrite_length (buf : List Byte) (off : Nat) (v : List Byte) (h : off ≤ buf.length) :
    (memWrite buf off v).length = max buf.length (off + v.length) := by
  simp [memWrite]
  omega

/-- A write that ends inside the buffer's size keeps it. -/
theorem bufferWf_memWrite (buf : List Byte) (off : Nat) (v : List Byte) (h : off ≤ buf.length)
    (hb : bufferWf buf = true) (hv : off + v.length ≤ MAX_FRAME) :
    bufferWf (memWrite buf off v) = true := by
  simp only [bufferWf, decide_eq_true_eq, memWrite_length buf off v h] at hb ⊢
  omega

theorem bufferWf_nil : bufferWf [] = true := by decide

/-- The two buffers right after reset are of their size. -/
theorem bufferWf_reset : bufferWf State.reset.fr.cb = true ∧ bufferWf State.reset.tb = true := by
  decide

/-- The request TC.ENCODE builds is a frame of R90. -/
theorem encodeFrame_eq_frameBytes (p : CrcParams) (id : Byte) (cmd : List Byte) :
    encodeFrame p id cmd = frameBytes ENQ id cmd (frameCrc p ENQ id cmd) ETX := by
  simp [encodeFrame, memWrite, frameBytes, frameCrc, encodeBody]

/-- TB keeps its size: the encoder writes only inside its domain (R226). -/
theorem bufferWf_encodeFrame (p : CrcParams) (id : Byte) (cmd : List Byte)
    (h : encodeRefuses id cmd = false) : bufferWf (encodeFrame p id cmd) = true := by
  simp only [encodeRefuses, Bool.or_eq_false_iff, decide_eq_false_iff_not] at h
  rw [encodeFrame_eq_frameBytes]
  simp only [bufferWf, frameBytes_length, MAX_FRAME, decide_eq_true_eq]
  omega

end Sys2Proof.Machine
end

