-- ==== Sys2Proof/Laws/Crc.lean ====
section
/-! SUPPORT. What the bit step and the byte step of the CRC do: they are linear over xor, and with an
odd polynomial they lose nothing. -/

namespace Sys2Proof.Machine

theorem crcBit_xor (poly a b : Word16) : crcBit poly (a ^^^ b) = crcBit poly a ^^^ crcBit poly b := by
  unfold crcBit
  rw [BitVec.getLsbD_xor, BitVec.shiftLeft_xor_distrib]
  cases a.getLsbD 15 <;> cases b.getLsbD 15 <;>
    simp only [Bool.xor_true, Bool.xor_false, Bool.not_true, Bool.not_false, Bool.false_eq_true,
      if_true, if_false]
  · ac_rfl
  · ac_rfl
  · rw [show a <<< 1 ^^^ poly ^^^ (b <<< 1 ^^^ poly) = a <<< 1 ^^^ b <<< 1 ^^^ (poly ^^^ poly) by ac_rfl,
      BitVec.xor_self, BitVec.xor_zero]

theorem crcBit_iterate_xor (poly : Word16) (n : Nat) (a b : Word16) :
    (crcBit poly)^[n] (a ^^^ b) = (crcBit poly)^[n] a ^^^ (crcBit poly)^[n] b := by
  induction n generalizing a b with
  | zero => rfl
  | succ n ih => simp only [Function.iterate_succ, Function.comp_apply, crcBit_xor, ih]

theorem crcBit_eq_zero (poly a : Word16) (hp : poly.getLsbD 0 = true) (h : crcBit poly a = 0#16) :
    a = 0#16 := by
  unfold crcBit at h
  split at h
  · have h0 := congrArg (fun v => BitVec.getLsbD v 0) h
    simp only [BitVec.getLsbD_xor, BitVec.getLsbD_shiftLeft, hp] at h0
    simp at h0
  · next h15 =>
    apply BitVec.eq_of_getLsbD_eq
    intro i hi
    by_cases hi15 : i = 15
    · subst hi15; simpa using h15
    · have h1 := congrArg (fun v => BitVec.getLsbD v (i + 1)) h
      simp only [BitVec.getLsbD_shiftLeft] at h1
      have h2 : i + 1 < 16 := by omega
      simpa [h2] using h1

theorem crcBit_iterate_eq_zero (poly a : Word16) (n : Nat) (hp : poly.getLsbD 0 = true)
    (h : (crcBit poly)^[n] a = 0#16) : a = 0#16 := by
  induction n generalizing a with
  | zero => exact h
  | succ n ih => exact crcBit_eq_zero poly a hp (ih _ h)

theorem crcByteAcc_xor (p : CrcParams) (a b : Word16) (x y : Byte) :
    crcByteAcc p (a ^^^ b) (x ^^^ y) = crcByteAcc p a x ^^^ crcByteAcc p b y := by
  have h : ∀ v w : Byte, ((v ^^^ w).setWidth 16) <<< 8
      = ((v.setWidth 16) <<< 8 ^^^ (w.setWidth 16) <<< 8 : Word16) := by
    intro v w
    rw [BitVec.setWidth_xor, BitVec.shiftLeft_xor_distrib]
  have hr : reflect8 (x ^^^ y) = reflect8 x ^^^ reflect8 y := by
    apply BitVec.eq_of_getLsbD_eq
    intro i hi
    simp only [reflect8, BitVec.getLsbD_reverse, BitVec.getLsbD_xor, BitVec.getMsbD_xor]
  unfold crcByteAcc
  rw [← crcBit_iterate_xor]
  cases p.refin <;> simp only [hr, h, Bool.false_eq_true, if_false, if_true] <;> ac_rfl

theorem crcByteAcc_injective (p : CrcParams) (hp : p.poly.getLsbD 0 = true) (a b : Word16) (x : Byte)
    (h : crcByteAcc p a x = crcByteAcc p b x) : a = b := by
  have h0 : crcByteAcc p (a ^^^ b) (x ^^^ x) = 0#16 := by
    rw [crcByteAcc_xor, h, BitVec.xor_self]
  have h1 := crcBit_iterate_eq_zero p.poly _ 8 hp h0
  have hz : (if p.refin then reflect8 0#8 else 0#8) = 0#8 := by
    rw [show reflect8 0#8 = 0#8 by decide]
    exact ite_self _
  rw [BitVec.xor_self, hz] at h1
  simpa [BitVec.xor_eq_zero_iff] using h1

end Sys2Proof.Machine
end

