-- ==== Sys2Proof/Laws/Reader.lean ====
section
/-! SUPPORT. What the frame reader's transitions can do: the registers stay together, and a candidate
has the bytes its length byte announces. -/

namespace Sys2Proof.Machine

theorem pushByte_eq (cb : List Byte) (b : Byte) : pushByte cb b = cb ++ [b] := by
  simp [pushByte, memWrite]

theorem lengthByte_append (cb : List Byte) (b : Byte) (h : 4 ≤ cb.length) :
    lengthByte (cb ++ [b]) = lengthByte cb := by
  simp [lengthByte, byteAt, List.getElem?_append_left (show 3 < cb.length by omega)]

theorem check1_append (cb : List Byte) (b : Byte) (h : check1 cb = true) :
    check1 (cb ++ [b]) = true := by
  cases cb <;> simp_all [check1, byteAt]

theorem check2_append (cb : List Byte) (b : Byte) (h : check2 cb = true) :
    check2 (cb ++ [b]) = true := by
  simp only [check2, Bool.and_eq_true, decide_eq_true_eq] at h ⊢
  have h1 : byteAt (cb ++ [b]) 1 = byteAt cb 1 := by
    simp [byteAt, List.getElem?_append_left (show 1 < cb.length by omega)]
  rw [h1]
  exact ⟨by simp; omega, h.2⟩

theorem lengthByte_lt (c : List Byte) : lengthByte c < 256 := (byteAt c 3).isLt

theorem readerOk_readerStart : readerOk readerStart = true := by decide

theorem readerOk_timeout (r : Reader) : readerOk (readerTimeout r).1 = true := by
  simp [readerOk, readerTimeout]

theorem readerOk_fault (r : Reader) : readerOk (readerFault r).1 = true := by
  simp [readerOk, readerFault]

/-- A candidate the reader hands over: the start and the kind byte hold, and it has exactly the bytes
its length byte announces (R159). -/
def candidateOk (c : List Byte) : Prop :=
  c.length = lengthByte c + 7 ∧ check1 c = true ∧ check2 c = true

/-- What FR.BYTE can do: the registers stay together; it ends the call with a candidate and no call in
progress, or goes on in a call. -/
theorem readerByte_spec (b : Byte) (r : Reader) (h : readerOk r = true) (hp : r.phase ≠ .idle) :
    readerOk (readerByte b r).1 = true ∧ (readerByte b r).1.consumed = true
      ∧ (((readerByte b r).2 = none ∧ (readerByte b r).1.phase ≠ .idle)
        ∨ ∃ c, (readerByte b r).2 = some (.candidate c) ∧ candidateOk c
            ∧ (readerByte b r).1 = ⟨.idle, [], 0, true⟩) := by
  obtain ⟨phase, cb, need, consumed⟩ := r
  cases phase with
  | idle => exact absurd rfl hp
  | hunt =>
    simp only [readerOk, decide_eq_true_eq] at h
    obtain ⟨rfl, rfl⟩ := h
    by_cases hb : b = STX <;> simp [readerByte, selectRow, rowByte, byteHunt, hb, readerOk]
  | kind =>
    simp only [readerOk, Bool.and_eq_true, decide_eq_true_eq] at h
    obtain ⟨⟨rfl, rfl⟩, rfl⟩ := h
    by_cases hb : b = ENQ ∨ b = ACK
    · simp only [readerByte, selectRow, rowByte, byteKind, hb, if_true, pushByte_eq]
      rcases hb with rfl | rfl <;> simp [readerOk, check1, check2, byteAt]
    · simp [readerByte, selectRow, rowByte, byteKind, hb, readerOk]
  | hdr =>
    simp only [readerOk, Bool.and_eq_true, decide_eq_true_eq] at h
    obtain ⟨⟨⟨⟨hl, h1, h2⟩, hc1⟩, hc2⟩, -⟩ := h
    have e1 := check1_append cb b hc1
    have e2 := check2_append cb b hc2
    by_cases hn : need - 1 = 0
    · simp only [readerByte, selectRow, rowByte, byteHdr, pushByte_eq, hn, if_true, readerOk, e1, e2]
      simp
      omega
    · simp only [readerByte, selectRow, rowByte, byteHdr, pushByte_eq, hn, if_false, readerOk, e1, e2]
      simp
      omega
  | body =>
    simp only [readerOk, Bool.and_eq_true, decide_eq_true_eq] at h
    obtain ⟨⟨⟨⟨hl, h1, h4⟩, hc1⟩, hc2⟩, -⟩ := h
    have e1 := check1_append cb b hc1
    have e2 := check2_append cb b hc2
    have e3 := lengthByte_append cb b h4
    by_cases hn : 1 < need
    · simp only [readerByte, selectRow, hn, if_true, rowByte, byteBody, pushByte_eq, readerOk, e1, e2,
        e3]
      simp
      omega
    · obtain rfl : need = 1 := by omega
      refine ⟨by simp [readerByte, selectRow, rowByte, byteLast, readerOk],
        by simp [readerByte, selectRow, rowByte, byteLast], Or.inr ⟨cb ++ [b], ?_, ?_, ?_⟩⟩
      · simp [readerByte, selectRow, rowByte, byteLast, pushByte_eq]
      · exact ⟨by simp [e3, hl], e1, e2⟩
      · simp [readerByte, selectRow, rowByte, byteLast]

/-- What the rest of a reader call can do, whatever the events: it ends with no call in progress, and
with a candidate only if that is one the reader can hand over. -/
theorem readCall_spec (events : List InEvent) (r : Reader) (h : readerOk r = true)
    (hp : r.phase ≠ .idle) :
    (readCall events r).2.2.phase = .idle ∧ (readCall events r).2.2.cb = []
      ∧ (readCall events r).2.2.need = 0
      ∧ ∀ c, (readCall events r).1 = .candidate c → candidateOk c := by
  induction events generalizing r with
  | nil => simp only [readCall, readerTimeout]; split <;> simp
  | cons e es ih =>
    cases e with
    | timeout => simp only [readCall, readerTimeout]; split <;> simp
    | transportFault => simp [readCall, readerFault]
    | byte b =>
      obtain ⟨h1, -, h3⟩ := readerByte_spec b r h hp
      rcases hrb : readerByte b r with ⟨r', o⟩
      simp only [hrb] at h1 h3
      rcases h3 with ⟨rfl, h4⟩ | ⟨c, rfl, h4, rfl⟩
      · simp only [readCall, hrb]
        exact ih r' h1 h4
      · simp [readCall, hrb, h4]

/-! ### Input events -/

/-- The code of an event names it (30_encoding.md R112). -/
theorem eventOf_evCode (b : Byte) (e : InEvent) (h : ∀ c, e = .byte c → c = b) :
    eventOf (evCode e) b = some e := by
  cases e with
  | byte c => obtain rfl := h c rfl; rfl
  | timeout => rfl
  | transportFault => rfl

/-- In a reader call the operation of a `Byte` event takes the byte (R150, 30_encoding.md R116). -/
theorem exec_eventInstr_byte (s : State) (b : Byte) (h : s.fr.phase ≠ .idle)
    (hr : readerOk s.fr = true) :
    exec (eventInstr s.fr (.byte b)) s
      = .next ((s.setFr (readerByte b s.fr).1).ret (readResult (readerByte b s.fr).2)) := by
  have hs : selectRow s.fr ≠ none := by
    unfold selectRow
    cases hp : s.fr.phase <;> simp [hp] at h ⊢
    simp [readerOk, hp] at hr
    by_cases h1 : 1 < s.fr.need
    · simp [h1]
    · rw [if_neg h1, if_pos (by omega)]
      simp
  cases hw : selectRow s.fr with
  | none => exact absurd hw hs
  | some row =>
    simp only [eventInstr, hw, Option.getD_some, readerByte]
    cases row <;>
      simp [frByteRow, exec, execFrByteHunt, execFrByteKind, execFrByteHdr, execFrByteBody,
        execFrByteLast, frByteOp, h, hw, rowByte]

/-- The buffer bound follows from the registers (20_memory.md R64). -/
theorem bufferWf_of_readerOk (r : Reader) (h : readerOk r = true) : bufferWf r.cb = true := by
  obtain ⟨phase, cb, need, consumed⟩ := r
  have hl := lengthByte_lt cb
  cases phase <;>
    simp only [readerOk, Bool.and_eq_true, decide_eq_true_eq, bufferWf, MAX_FRAME] at h ⊢
  · simp [h.1]
  · simp [h.1]
  · simp [h.1.1]
  · exact decide_eq_true (by omega)
  · exact decide_eq_true (by omega)

end Sys2Proof.Machine
end

