-- ==== Sys2Proof/Laws/Frames.lean ====
section
/-! SUPPORT. What the validator and the header say of a frame laid out as R90 does, and what a valid
result says of the sequence. -/

namespace Sys2Proof.Machine

theorem loByte_le16 (lo hi : Byte) : loByte (le16 lo hi) = lo := by
  apply BitVec.eq_of_getLsbD_eq
  intro i h
  simp only [loByte, le16, BitVec.getLsbD_extractLsb', BitVec.getLsbD_append]
  simp [h]

theorem hiByte_le16 (lo hi : Byte) : hiByte (le16 lo hi) = hi := by
  apply BitVec.eq_of_getLsbD_eq
  intro i h
  simp only [hiByte, le16, BitVec.getLsbD_extractLsb', BitVec.getLsbD_append]
  simp [h, show ¬ 8 + i < 8 by omega]

theorem le16_injective (a b c d : Byte) (h : le16 a b = le16 c d) : a = c ∧ b = d :=
  ⟨by rw [← loByte_le16 a b, h, loByte_le16], by rw [← hiByte_le16 a b, h, hiByte_le16]⟩

/-! ### The fields of a frame laid out by `frameBytes` -/

section Fields

variable (kind id : Byte) (payload : List Byte) (crc : Word16) (term : Byte)

theorem frameBytes_kind : byteAt (frameBytes kind id payload crc term) 1 = kind := by
  simp [frameBytes, byteAt]

theorem frameBytes_deviceId : byteAt (frameBytes kind id payload crc term) 2 = id := by
  simp [frameBytes, byteAt]

theorem lengthByte_frameBytes (h : payload.length ≤ 255) :
    lengthByte (frameBytes kind id payload crc term) = payload.length := by
  simp [lengthByte, byteAt, frameBytes]
  omega

theorem crcRange_frameBytes :
    crcRange (frameBytes kind id payload crc term) payload.length
      = [kind, id, BitVec.ofNat 8 payload.length] ++ payload := by
  rw [crcRange_eq]
  simp [frameBytes]

theorem frameBytes_trailer (k : Nat) :
    byteAt (frameBytes kind id payload crc term) (4 + payload.length + k)
      = byteAt [loByte crc, hiByte crc, term] k := by
  have h : frameBytes kind id payload crc term
      = ([STX, kind, id, BitVec.ofNat 8 payload.length] ++ payload)
        ++ [loByte crc, hiByte crc, term] := rfl
  simp only [h, byteAt, List.getD_eq_getElem?_getD]
  rw [List.getElem?_append_right (by simp; omega)]
  congr 2
  simp
  omega

theorem transmittedCrc_frameBytes :
    transmittedCrc (frameBytes kind id payload crc term) payload.length = crc := by
  have h0 := frameBytes_trailer kind id payload crc term 0
  have h1 := frameBytes_trailer kind id payload crc term 1
  rw [transmittedCrc, show 4 + payload.length = 4 + payload.length + 0 by rfl,
    show 5 + payload.length = 4 + payload.length + 1 by omega, h0, h1]
  exact le16_loByte_hiByte crc

theorem frameBytes_terminator :
    byteAt (frameBytes kind id payload crc term) (6 + payload.length) = term := by
  have h := frameBytes_trailer kind id payload crc term 2
  rw [show 6 + payload.length = 4 + payload.length + 2 by omega, h]
  rfl

/-- The nine fields of a frame's header (R188). -/
theorem header_frameBytes (h : payload.length ≤ 255) :
    header (frameBytes kind id payload crc term)
      = ⟨kind, id, payload.length, 4, 4 + payload.length, 6, payload.length - 2,
          if 2 ≤ payload.length then payload[0]? else none,
          if 2 ≤ payload.length then payload[1]? else none⟩ := by
  simp only [header, frameBytes_kind, frameBytes_deviceId,
    lengthByte_frameBytes kind id payload crc term h]
  by_cases h2 : 2 ≤ payload.length
  · rcases payload with _ | ⟨a, _ | ⟨b, p⟩⟩
    · simp at h2
    · simp at h2
    · simp [frameBytes, byteAt]
  · simp [h2]

/-- FV's verdict on a frame: only the terminator and the CRC are left to fail, and the kind byte
classifies (R184 to R187). -/
theorem validate_frameBytes (p : CrcParams) (hk : kind = ENQ ∨ kind = ACK)
    (h : payload.length ≤ 255) :
    validate p (frameBytes kind id payload crc term)
      = if term ≠ ETX then .invalid .badTerminator
        else if frameCrc p kind id payload ≠ crc then
          .invalid (.crcMismatch (frameCrc p kind id payload) crc)
        else if kind = ENQ then .validRequest (header (frameBytes kind id payload crc term))
        else .validReply (header (frameBytes kind id payload crc term)) := by
  have hl := lengthByte_frameBytes kind id payload crc term h
  have h1 : check1 (frameBytes kind id payload crc term) = true := by
    simp [check1, frameBytes, byteAt]
  have h2 : check2 (frameBytes kind id payload crc term) = true := by
    simp [check2, frameBytes, byteAt, hk]
  have h3 : check3 (frameBytes kind id payload crc term) = true := by
    simp [check3, frameBytes_length, hl]
  have h4 : check4 (frameBytes kind id payload crc term) = (term == ETX) := by
    simp only [check4, hl, frameBytes_terminator]
  have h5 : computedCrc p (frameBytes kind id payload crc term) = frameCrc p kind id payload := by
    simp only [computedCrc, hl, crcRange_frameBytes, frameCrc]
  simp only [validate, check5, h1, h2, h3, h4, h5, hl, transmittedCrc_frameBytes, frameBytes_kind]
  by_cases ht : term = ETX <;> simp [ht]

end Fields

/-! ### What a verdict says -/

/-- A sequence FV finds valid passes all five checks (R186). -/
theorem checks_of_valid (p : CrcParams) (f : List Byte)
    (h : ∃ hdr, validate p f = .validRequest hdr ∨ validate p f = .validReply hdr) :
    check1 f = true ∧ check2 f = true ∧ check3 f = true ∧ check4 f = true ∧ check5 p f = true := by
  obtain ⟨hdr, h⟩ := h
  unfold validate at h
  cases h1 : check1 f <;> simp [h1] at h
  cases h2 : check2 f <;> simp [h2] at h
  cases h3 : check3 f <;> simp [h3] at h
  cases h4 : check4 f <;> simp [h4] at h
  cases h5 : check5 p f <;> simp [h5] at h
  simp

/-- A valid reply comes with its own header, and is no request (R186). -/
theorem header_of_validReply (p : CrcParams) (f : List Byte) (hdr : Header)
    (h : validate p f = .validReply hdr) : hdr = header f ∧ byteAt f 1 ≠ ENQ := by
  obtain ⟨h1, h2, h3, h4, h5⟩ := checks_of_valid p f ⟨hdr, Or.inr h⟩
  simp only [validate, h1, h2, h3, h4, h5] at h
  by_cases hk : byteAt f 1 = ENQ
  · simp [hk] at h
  · simp only [hk] at h
    exact ⟨by simpa using h.symm, hk⟩

/-- A candidate the reader hands over is laid out as R90 does. -/
theorem exists_frameBytes_of_candidateOk (f : List Byte) (h : candidateOk f) :
    ∃ kind id payload crc term, (kind = ENQ ∨ kind = ACK) ∧ payload.length ≤ 255
      ∧ f = frameBytes kind id payload crc term := by
  obtain ⟨hl, h1, h2⟩ := h
  rcases f with _ | ⟨a, _ | ⟨kind, _ | ⟨id, _ | ⟨len, r⟩⟩⟩⟩ <;> simp at hl
  rw [show lengthByte (a :: kind :: id :: len :: r) = len.toNat from rfl] at hl
  have ha : a = STX := by simpa [check1, byteAt] using h1
  have hk : kind = ENQ ∨ kind = ACK := by simpa [check2, byteAt] using h2
  have hlt := len.isLt
  have hr : r = r.take len.toNat ++ r.drop len.toNat := by simp
  have hd : (r.drop len.toNat).length = 3 := by simp; omega
  rcases hx : r.drop len.toNat with _ | ⟨x, _ | ⟨y, _ | ⟨z, _ | ⟨w, q⟩⟩⟩⟩ <;> simp [hx] at hd
  have hp : (r.take len.toNat).length = len.toNat := by simp; omega
  refine ⟨kind, id, r.take len.toNat, le16 x y, z, hk, by omega, ?_⟩
  simp only [frameBytes, loByte_le16, hiByte_le16, ← hx, hp, ha]
  simp

end Sys2Proof.Machine
end

