-- ==== Sys2Proof/Laws/Loop.lean ====
section
/-! SUPPORT. What the steps of an iteration can do, said once each: the scheduler evaluation, a frame in
hand, and that a candidate and the frame it decodes to are handled alike. -/

namespace Sys2Proof.Machine

/-! ### The scheduler evaluation -/

/-- PS.TICK writes the scheduler states, the encoder's scratch and the trace (R240). -/
theorem tick_spec (s : State) (t : Time) :
    ∃ acc tb, s.tick t
      = { s with
          devs := s.devs.map (fun d => { d with psState := .idle })
          crcAcc := acc
          tb := tb
          env := { s.env with
                    trace := s.env.trace ++ (dueDevices s.cfg s.clk s.devs t).map
                      (fun d => .tx (telemetryRequest s.cfg.crc d.id)) } }
      ∧ (tb = s.tb ∨ tb = []) := by
  refine ⟨(s.tick t).crcAcc, (s.tick t).tb, ?_, ?_⟩
  · simp only [State.tick]
    split <;> rfl
  · simp only [State.tick]
    split
    · exact Or.inl rfl
    · exact Or.inr rfl

/-- A busy bus is left alone (R241). -/
theorem dueDevices_of_busy (cfg : Config) (clk : Clock) (devs : List Device) (t : Time)
    (h : trafficQuiet cfg clk t = false) : dueDevices cfg clk devs t = [] := by
  simp [dueDevices, h]

/-! ### A frame in hand -/

/-- What the block does with a frame: a wrong last byte and a wrong CRC are reported and the frame is
dropped; otherwise `k` takes it with its header (R184, R185, R187, R285). -/
theorem onValid_frameBytes (s : State) (kind id : Byte) (payload : List Byte) (crc : Word16)
    (term : Byte) (k : State → Header → State) (hk : kind = ENQ ∨ kind = ACK)
    (hl : payload.length ≤ 255) :
    ∃ acc, s.onValid (frameBytes kind id payload crc term) k
      = if term ≠ ETX then (s.stampTraffic.setAcc acc).fail .badTerminator
        else if frameCrc s.cfg.crc kind id payload ≠ crc then
          (s.stampTraffic.setAcc acc).fail (.crcMismatch (frameCrc s.cfg.crc kind id payload) crc)
        else k (s.stampTraffic.setAcc acc) (header (frameBytes kind id payload crc term)) := by
  have hc : s.stampTraffic.cfg = s.cfg := rfl
  refine ⟨validateAcc s.cfg.crc (frameBytes kind id payload crc term) s.stampTraffic.crcAcc, ?_⟩
  simp only [State.onValid, hc, validate_frameBytes kind id payload crc term _ hk hl]
  by_cases ht : term = ETX
  · by_cases hx : frameCrc s.cfg.crc kind id payload = crc
    · have ht' : ¬ term ≠ ETX := by simp [ht]
      have hx' : ¬ frameCrc s.cfg.crc kind id payload ≠ crc := by simp [hx]
      by_cases he : kind = ENQ
      · simp only [if_neg ht', if_neg hx', if_pos he]
      · simp only [if_neg ht', if_neg hx', if_neg he]
    · simp [ht, hx, reasonStatus]
  · simp [ht, reasonStatus]

/-- Handling a frame by its row is dispatching it, when the row does with a valid request and with a
valid reply what the loop does (R285). -/
theorem onValid_eq_receive (s : State) (c : List Byte) (k : State → Header → State)
    (hq : byteAt c 1 = ENQ → ∀ s hdr, k s hdr = s.emit [.status (.validRequest hdr.deviceId)])
    (hr : byteAt c 1 ≠ ENQ → ∀ s, k s (header c) = s.dispatchReply c (header c)) :
    s.onValid c k = s.receive c := by
  simp only [State.onValid, State.receive, State.dispatch]
  cases hv : validate s.stampTraffic.cfg.crc c with
  | invalid reason => rfl
  | validRequest hdr =>
    have he : byteAt c 1 = ENQ := by
      obtain ⟨h1, h2, h3, h4, h5⟩ := checks_of_valid _ _ ⟨hdr, Or.inl hv⟩
      by_contra hne
      simp [validate, h1, h2, h3, h4, h5, hne] at hv
    simp only [hq he]
  | validReply hdr =>
    obtain ⟨rfl, he⟩ := header_of_validReply _ _ _ hv
    simp only [hr he]

/-! ### Decoding a reply -/

theorem decodeReply_of_command (cfg : Config) (c : List Byte) (hdr : Header)
    (h : hdr.command = some CMD_TELEMETRY ∧ hdr.subcommand = some SUB_TELEMETRY) :
    decodeReply cfg c hdr
      = if hdr.dataLen ≠ TELEMETRY_DATA_LEN then .lengthMismatch hdr.dataLen
        else .record (unpackRecord cfg c) := by
  simp [decodeReply, h.1, h.2]

/-- The walk gives one entry per named row, in table order, whatever the bytes (R204, R212). -/
theorem walk_names (cfg : Config) (c : List Byte) (o : Nat) (rows : List Row) :
    (walk cfg c o rows).map (·.1) = rows.filterMap (·.field) := by
  induction rows generalizing o with
  | nil => rfl
  | cons r rs ih =>
    obtain ⟨field, width⟩ := r
    cases field with
    | none => simp [walk, unpackRow, ih]
    | some n => cases n <;> simp [walk, unpackRow, ih]

theorem unpackRecord_names (cfg : Config) (c : List Byte) :
    (unpackRecord cfg c).map (·.1) = fieldNames := walk_names cfg c 6 descriptorTable

end Sys2Proof.Machine
end

