-- ==== Sys2Proof/Laws/PerInstr.lean ====
section
/-! SUPPORT. The family FirstByte, one lemma per constructor of Instr: the first byte an instruction is
encoded with is STX for a frame (30_encoding.md R90), and for an operation a code of the opsel table
(R112), of which one row is read. -/

namespace Sys2Proof.Laws

/-- The first byte of an encoding tells its code space's instruction. -/
def FirstByte.Statement (i : Instr) : Prop :=
  ∃ b rest, encode i = b :: rest
    ∧ match i.space with
      | .frame => b = STX
      | .operation => (decodeOperands i.frRow b.toNat rest).isSome = true

theorem FirstByte.frameReqTelemetry (id : Byte) (crc : Word16) (term : Byte) :
    FirstByte.Statement (.frameReqTelemetry id crc term) := ⟨_, _, rfl, rfl⟩

theorem FirstByte.frameReq (id : Byte) (payload : List Byte) (crc : Word16) (term : Byte) :
    FirstByte.Statement (.frameReq id payload crc term) := ⟨_, _, rfl, rfl⟩

theorem FirstByte.frameReplyTelemetry (id : Byte) (data : List Byte) (crc : Word16) (term : Byte) :
    FirstByte.Statement (.frameReplyTelemetry id data crc term) := ⟨_, _, rfl, rfl⟩

theorem FirstByte.frameReplyBadlen (id : Byte) (data : List Byte) (crc : Word16) (term : Byte) :
    FirstByte.Statement (.frameReplyBadlen id data crc term) := ⟨_, _, rfl, rfl⟩

theorem FirstByte.frameReplyOther (id : Byte) (payload : List Byte) (crc : Word16) (term : Byte) :
    FirstByte.Statement (.frameReplyOther id payload crc term) := ⟨_, _, rfl, rfl⟩

theorem FirstByte.reset :
    FirstByte.Statement .reset := ⟨_, _, rfl, rfl⟩

theorem FirstByte.run :
    FirstByte.Statement .run := ⟨_, _, rfl, rfl⟩

theorem FirstByte.shutdown :
    FirstByte.Statement .shutdown := ⟨_, _, rfl, rfl⟩

theorem FirstByte.fatal :
    FirstByte.Statement .fatal := ⟨_, _, rfl, rfl⟩

theorem FirstByte.crcReset :
    FirstByte.Statement .crcReset := ⟨_, _, rfl, rfl⟩

theorem FirstByte.crcByte (b : Byte) :
    FirstByte.Statement (.crcByte b) := ⟨_, _, rfl, rfl⟩

theorem FirstByte.crcBlock (bytes : List Byte) :
    FirstByte.Statement (.crcBlock bytes) := ⟨_, _, rfl, rfl⟩

theorem FirstByte.crcValue :
    FirstByte.Statement .crcValue := ⟨_, _, rfl, rfl⟩

theorem FirstByte.crcCheck (c : List Byte) (len : Nat) :
    FirstByte.Statement (.crcCheck c len) := ⟨_, _, rfl, rfl⟩

theorem FirstByte.frStart :
    FirstByte.Statement .frStart := ⟨_, _, rfl, rfl⟩

theorem FirstByte.frByteHunt (b : Byte) :
    FirstByte.Statement (.frByteHunt b) := ⟨_, _, rfl, rfl⟩

theorem FirstByte.frByteKind (b : Byte) :
    FirstByte.Statement (.frByteKind b) := ⟨_, _, rfl, rfl⟩

theorem FirstByte.frByteHdr (b : Byte) :
    FirstByte.Statement (.frByteHdr b) := ⟨_, _, rfl, rfl⟩

theorem FirstByte.frByteBody (b : Byte) :
    FirstByte.Statement (.frByteBody b) := ⟨_, _, rfl, rfl⟩

theorem FirstByte.frByteLast (b : Byte) :
    FirstByte.Statement (.frByteLast b) := ⟨_, _, rfl, rfl⟩

theorem FirstByte.frTimeout :
    FirstByte.Statement .frTimeout := ⟨_, _, rfl, rfl⟩

theorem FirstByte.frFault :
    FirstByte.Statement .frFault := ⟨_, _, rfl, rfl⟩

theorem FirstByte.fvValidate (c : List Byte) :
    FirstByte.Statement (.fvValidate c) := ⟨_, _, rfl, rfl⟩

theorem FirstByte.fvHeader (c : List Byte) :
    FirstByte.Statement (.fvHeader c) := ⟨_, _, rfl, rfl⟩

theorem FirstByte.tcDecode (c : List Byte) (hdr : Header) :
    FirstByte.Statement (.tcDecode c hdr) := ⟨_, _, rfl, rfl⟩

theorem FirstByte.tcUnpackAscii (bytes : List Byte) :
    FirstByte.Statement (.tcUnpackAscii bytes) := ⟨_, _, rfl, rfl⟩

theorem FirstByte.tcUnpackU8 (b : Byte) :
    FirstByte.Statement (.tcUnpackU8 b) := ⟨_, _, rfl, rfl⟩

theorem FirstByte.tcUnpackU16 (name : U16Field) (b0 b1 : Byte) :
    FirstByte.Statement (.tcUnpackU16 name b0 b1) := ⟨_, _, rfl, rfl⟩

theorem FirstByte.tcUnpackU32 (name : U32Field) (b0 b1 b2 b3 : Byte) :
    FirstByte.Statement (.tcUnpackU32 name b0 b1 b2 b3) := ⟨_, _, rfl, rfl⟩

theorem FirstByte.tcUnpackRaw32 (b0 b1 b2 b3 : Byte) :
    FirstByte.Statement (.tcUnpackRaw32 b0 b1 b2 b3) := ⟨_, _, rfl, rfl⟩

theorem FirstByte.tcUnpackPad (bytes : List Byte) :
    FirstByte.Statement (.tcUnpackPad bytes) := ⟨_, _, rfl, rfl⟩

theorem FirstByte.tcScale (raw : Nat) (exp : Int) (unit : Text) :
    FirstByte.Statement (.tcScale raw exp unit) := ⟨_, _, rfl, rfl⟩

theorem FirstByte.tcEncode (id : Byte) (cmd : List Byte) :
    FirstByte.Statement (.tcEncode id cmd) := ⟨_, _, rfl, rfl⟩

theorem FirstByte.psTick (t : Time) :
    FirstByte.Statement (.psTick t) := ⟨_, _, rfl, rfl⟩

theorem FirstByte.psNoteTraffic (t : Time) :
    FirstByte.Statement (.psNoteTraffic t) := ⟨_, _, rfl, rfl⟩

theorem FirstByte.saAccept (i : Nat) (record : TelemetryRecord) (t : Time) :
    FirstByte.Statement (.saAccept i record t) := ⟨_, _, rfl, rfl⟩

theorem FirstByte.saFlush (t : Time) :
    FirstByte.Statement (.saFlush t) := ⟨_, _, rfl, rfl⟩

theorem FirstByte.saFinalFlush (t : Time) :
    FirstByte.Statement (.saFinalFlush t) := ⟨_, _, rfl, rfl⟩

end Sys2Proof.Laws
end

