-- ==== Sys2Proof/Laws/State.lean ====
section
/-! SUPPORT. One lemma per field per named update of the state: what each update leaves of each field.
Later proofs rewrite with these and never unfold an update. -/

namespace Sys2Proof.Machine

variable (s : State)

/-! ### State.emit -/

@[simp] theorem State.emit_cfg (es : List OutEvent) : (s.emit es).cfg = s.cfg := rfl
@[simp] theorem State.emit_running (es : List OutEvent) : (s.emit es).running = s.running := rfl
@[simp] theorem State.emit_devs (es : List OutEvent) : (s.emit es).devs = s.devs := rfl
@[simp] theorem State.emit_crcAcc (es : List OutEvent) : (s.emit es).crcAcc = s.crcAcc := rfl
@[simp] theorem State.emit_fr (es : List OutEvent) : (s.emit es).fr = s.fr := rfl
@[simp] theorem State.emit_tb (es : List OutEvent) : (s.emit es).tb = s.tb := rfl
@[simp] theorem State.emit_record (es : List OutEvent) : (s.emit es).record = s.record := rfl
@[simp] theorem State.emit_clk (es : List OutEvent) : (s.emit es).clk = s.clk := rfl
@[simp] theorem State.emit_loop (es : List OutEvent) : (s.emit es).loop = s.loop := rfl
@[simp] theorem State.emit_result (es : List OutEvent) : (s.emit es).result = s.result := rfl
@[simp] theorem State.emit_env_inbox (es : List OutEvent) :
    (s.emit es).env.inbox = s.env.inbox := rfl
@[simp] theorem State.emit_env_rx (es : List OutEvent) : (s.emit es).env.rx = s.env.rx := rfl
@[simp] theorem State.emit_env_answers (es : List OutEvent) :
    (s.emit es).env.answers = s.env.answers := rfl
@[simp] theorem State.emit_env_now (es : List OutEvent) : (s.emit es).env.now = s.env.now := rfl
@[simp] theorem State.emit_env_trace (es : List OutEvent) :
    (s.emit es).env.trace = s.env.trace ++ es := rfl

/-! ### State.ret -/

@[simp] theorem State.ret_cfg (r : Result) : (s.ret r).cfg = s.cfg := rfl
@[simp] theorem State.ret_running (r : Result) : (s.ret r).running = s.running := rfl
@[simp] theorem State.ret_devs (r : Result) : (s.ret r).devs = s.devs := rfl
@[simp] theorem State.ret_crcAcc (r : Result) : (s.ret r).crcAcc = s.crcAcc := rfl
@[simp] theorem State.ret_fr (r : Result) : (s.ret r).fr = s.fr := rfl
@[simp] theorem State.ret_tb (r : Result) : (s.ret r).tb = s.tb := rfl
@[simp] theorem State.ret_record (r : Result) : (s.ret r).record = s.record := rfl
@[simp] theorem State.ret_clk (r : Result) : (s.ret r).clk = s.clk := rfl
@[simp] theorem State.ret_loop (r : Result) : (s.ret r).loop = s.loop := rfl
@[simp] theorem State.ret_result (r : Result) : (s.ret r).result = r := rfl
@[simp] theorem State.ret_env_inbox (r : Result) : (s.ret r).env.inbox = s.env.inbox := rfl
@[simp] theorem State.ret_env_rx (r : Result) : (s.ret r).env.rx = s.env.rx := rfl
@[simp] theorem State.ret_env_answers (r : Result) : (s.ret r).env.answers = s.env.answers := rfl
@[simp] theorem State.ret_env_now (r : Result) : (s.ret r).env.now = s.env.now := rfl
@[simp] theorem State.ret_env_trace (r : Result) : (s.ret r).env.trace = s.env.trace := rfl

/-! ### State.setAcc -/

@[simp] theorem State.setAcc_cfg (v : Word16) : (s.setAcc v).cfg = s.cfg := rfl
@[simp] theorem State.setAcc_running (v : Word16) : (s.setAcc v).running = s.running := rfl
@[simp] theorem State.setAcc_devs (v : Word16) : (s.setAcc v).devs = s.devs := rfl
@[simp] theorem State.setAcc_crcAcc (v : Word16) : (s.setAcc v).crcAcc = v := rfl
@[simp] theorem State.setAcc_fr (v : Word16) : (s.setAcc v).fr = s.fr := rfl
@[simp] theorem State.setAcc_tb (v : Word16) : (s.setAcc v).tb = s.tb := rfl
@[simp] theorem State.setAcc_record (v : Word16) : (s.setAcc v).record = s.record := rfl
@[simp] theorem State.setAcc_clk (v : Word16) : (s.setAcc v).clk = s.clk := rfl
@[simp] theorem State.setAcc_loop (v : Word16) : (s.setAcc v).loop = s.loop := rfl
@[simp] theorem State.setAcc_result (v : Word16) : (s.setAcc v).result = s.result := rfl
@[simp] theorem State.setAcc_env_inbox (v : Word16) : (s.setAcc v).env.inbox = s.env.inbox := rfl
@[simp] theorem State.setAcc_env_rx (v : Word16) : (s.setAcc v).env.rx = s.env.rx := rfl
@[simp] theorem State.setAcc_env_answers (v : Word16) :
    (s.setAcc v).env.answers = s.env.answers := rfl
@[simp] theorem State.setAcc_env_now (v : Word16) : (s.setAcc v).env.now = s.env.now := rfl
@[simp] theorem State.setAcc_env_trace (v : Word16) : (s.setAcc v).env.trace = s.env.trace := rfl

/-! ### State.setFr -/

@[simp] theorem State.setFr_cfg (r : Reader) : (s.setFr r).cfg = s.cfg := rfl
@[simp] theorem State.setFr_running (r : Reader) : (s.setFr r).running = s.running := rfl
@[simp] theorem State.setFr_devs (r : Reader) : (s.setFr r).devs = s.devs := rfl
@[simp] theorem State.setFr_crcAcc (r : Reader) : (s.setFr r).crcAcc = s.crcAcc := rfl
@[simp] theorem State.setFr_fr (r : Reader) : (s.setFr r).fr = r := rfl
@[simp] theorem State.setFr_tb (r : Reader) : (s.setFr r).tb = s.tb := rfl
@[simp] theorem State.setFr_record (r : Reader) : (s.setFr r).record = s.record := rfl
@[simp] theorem State.setFr_clk (r : Reader) : (s.setFr r).clk = s.clk := rfl
@[simp] theorem State.setFr_loop (r : Reader) : (s.setFr r).loop = s.loop := rfl
@[simp] theorem State.setFr_result (r : Reader) : (s.setFr r).result = s.result := rfl
@[simp] theorem State.setFr_env_inbox (r : Reader) : (s.setFr r).env.inbox = s.env.inbox := rfl
@[simp] theorem State.setFr_env_rx (r : Reader) : (s.setFr r).env.rx = s.env.rx := rfl
@[simp] theorem State.setFr_env_answers (r : Reader) :
    (s.setFr r).env.answers = s.env.answers := rfl
@[simp] theorem State.setFr_env_now (r : Reader) : (s.setFr r).env.now = s.env.now := rfl
@[simp] theorem State.setFr_env_trace (r : Reader) : (s.setFr r).env.trace = s.env.trace := rfl

/-! ### State.setTb -/

@[simp] theorem State.setTb_cfg (bs : List Byte) : (s.setTb bs).cfg = s.cfg := rfl
@[simp] theorem State.setTb_running (bs : List Byte) : (s.setTb bs).running = s.running := rfl
@[simp] theorem State.setTb_devs (bs : List Byte) : (s.setTb bs).devs = s.devs := rfl
@[simp] theorem State.setTb_crcAcc (bs : List Byte) : (s.setTb bs).crcAcc = s.crcAcc := rfl
@[simp] theorem State.setTb_fr (bs : List Byte) : (s.setTb bs).fr = s.fr := rfl
@[simp] theorem State.setTb_tb (bs : List Byte) : (s.setTb bs).tb = bs := rfl
@[simp] theorem State.setTb_record (bs : List Byte) : (s.setTb bs).record = s.record := rfl
@[simp] theorem State.setTb_clk (bs : List Byte) : (s.setTb bs).clk = s.clk := rfl
@[simp] theorem State.setTb_loop (bs : List Byte) : (s.setTb bs).loop = s.loop := rfl
@[simp] theorem State.setTb_result (bs : List Byte) : (s.setTb bs).result = s.result := rfl
@[simp] theorem State.setTb_env_inbox (bs : List Byte) : (s.setTb bs).env.inbox = s.env.inbox := rfl
@[simp] theorem State.setTb_env_rx (bs : List Byte) : (s.setTb bs).env.rx = s.env.rx := rfl
@[simp] theorem State.setTb_env_answers (bs : List Byte) :
    (s.setTb bs).env.answers = s.env.answers := rfl
@[simp] theorem State.setTb_env_now (bs : List Byte) : (s.setTb bs).env.now = s.env.now := rfl
@[simp] theorem State.setTb_env_trace (bs : List Byte) : (s.setTb bs).env.trace = s.env.trace := rfl

/-! ### State.setRecord -/

@[simp] theorem State.setRecord_cfg (rec : TelemetryRecord) : (s.setRecord rec).cfg = s.cfg := rfl
@[simp] theorem State.setRecord_running (rec : TelemetryRecord) :
    (s.setRecord rec).running = s.running := rfl
@[simp] theorem State.setRecord_devs (rec : TelemetryRecord) :
    (s.setRecord rec).devs = s.devs := rfl
@[simp] theorem State.setRecord_crcAcc (rec : TelemetryRecord) :
    (s.setRecord rec).crcAcc = s.crcAcc := rfl
@[simp] theorem State.setRecord_fr (rec : TelemetryRecord) : (s.setRecord rec).fr = s.fr := rfl
@[simp] theorem State.setRecord_tb (rec : TelemetryRecord) : (s.setRecord rec).tb = s.tb := rfl
@[simp] theorem State.setRecord_record (rec : TelemetryRecord) :
    (s.setRecord rec).record = rec := rfl
@[simp] theorem State.setRecord_clk (rec : TelemetryRecord) : (s.setRecord rec).clk = s.clk := rfl
@[simp] theorem State.setRecord_loop (rec : TelemetryRecord) :
    (s.setRecord rec).loop = s.loop := rfl
@[simp] theorem State.setRecord_result (rec : TelemetryRecord) :
    (s.setRecord rec).result = s.result := rfl
@[simp] theorem State.setRecord_env_inbox (rec : TelemetryRecord) :
    (s.setRecord rec).env.inbox = s.env.inbox := rfl
@[simp] theorem State.setRecord_env_rx (rec : TelemetryRecord) :
    (s.setRecord rec).env.rx = s.env.rx := rfl
@[simp] theorem State.setRecord_env_answers (rec : TelemetryRecord) :
    (s.setRecord rec).env.answers = s.env.answers := rfl
@[simp] theorem State.setRecord_env_now (rec : TelemetryRecord) :
    (s.setRecord rec).env.now = s.env.now := rfl
@[simp] theorem State.setRecord_env_trace (rec : TelemetryRecord) :
    (s.setRecord rec).env.trace = s.env.trace := rfl

/-! ### State.setDevs -/

@[simp] theorem State.setDevs_cfg (ds : List Device) : (s.setDevs ds).cfg = s.cfg := rfl
@[simp] theorem State.setDevs_running (ds : List Device) : (s.setDevs ds).running = s.running := rfl
@[simp] theorem State.setDevs_devs (ds : List Device) : (s.setDevs ds).devs = ds := rfl
@[simp] theorem State.setDevs_crcAcc (ds : List Device) : (s.setDevs ds).crcAcc = s.crcAcc := rfl
@[simp] theorem State.setDevs_fr (ds : List Device) : (s.setDevs ds).fr = s.fr := rfl
@[simp] theorem State.setDevs_tb (ds : List Device) : (s.setDevs ds).tb = s.tb := rfl
@[simp] theorem State.setDevs_record (ds : List Device) : (s.setDevs ds).record = s.record := rfl
@[simp] theorem State.setDevs_clk (ds : List Device) : (s.setDevs ds).clk = s.clk := rfl
@[simp] theorem State.setDevs_loop (ds : List Device) : (s.setDevs ds).loop = s.loop := rfl
@[simp] theorem State.setDevs_result (ds : List Device) : (s.setDevs ds).result = s.result := rfl
@[simp] theorem State.setDevs_env_inbox (ds : List Device) :
    (s.setDevs ds).env.inbox = s.env.inbox := rfl
@[simp] theorem State.setDevs_env_rx (ds : List Device) : (s.setDevs ds).env.rx = s.env.rx := rfl
@[simp] theorem State.setDevs_env_answers (ds : List Device) :
    (s.setDevs ds).env.answers = s.env.answers := rfl
@[simp] theorem State.setDevs_env_now (ds : List Device) : (s.setDevs ds).env.now = s.env.now := rfl
@[simp] theorem State.setDevs_env_trace (ds : List Device) :
    (s.setDevs ds).env.trace = s.env.trace := rfl

/-! ### State.setLastTraffic -/

@[simp] theorem State.setLastTraffic_cfg (t : Time) : (s.setLastTraffic t).cfg = s.cfg := rfl
@[simp] theorem State.setLastTraffic_running (t : Time) :
    (s.setLastTraffic t).running = s.running := rfl
@[simp] theorem State.setLastTraffic_devs (t : Time) : (s.setLastTraffic t).devs = s.devs := rfl
@[simp] theorem State.setLastTraffic_crcAcc (t : Time) :
    (s.setLastTraffic t).crcAcc = s.crcAcc := rfl
@[simp] theorem State.setLastTraffic_fr (t : Time) : (s.setLastTraffic t).fr = s.fr := rfl
@[simp] theorem State.setLastTraffic_tb (t : Time) : (s.setLastTraffic t).tb = s.tb := rfl
@[simp] theorem State.setLastTraffic_record (t : Time) :
    (s.setLastTraffic t).record = s.record := rfl
@[simp] theorem State.setLastTraffic_clk (t : Time) :
    (s.setLastTraffic t).clk = { s.clk with lastTraffic := some t } := rfl
@[simp] theorem State.setLastTraffic_loop (t : Time) : (s.setLastTraffic t).loop = s.loop := rfl
@[simp] theorem State.setLastTraffic_result (t : Time) :
    (s.setLastTraffic t).result = s.result := rfl
@[simp] theorem State.setLastTraffic_env_inbox (t : Time) :
    (s.setLastTraffic t).env.inbox = s.env.inbox := rfl
@[simp] theorem State.setLastTraffic_env_rx (t : Time) :
    (s.setLastTraffic t).env.rx = s.env.rx := rfl
@[simp] theorem State.setLastTraffic_env_answers (t : Time) :
    (s.setLastTraffic t).env.answers = s.env.answers := rfl
@[simp] theorem State.setLastTraffic_env_now (t : Time) :
    (s.setLastTraffic t).env.now = s.env.now := rfl
@[simp] theorem State.setLastTraffic_env_trace (t : Time) :
    (s.setLastTraffic t).env.trace = s.env.trace := rfl

/-! ### State.setLastFlush -/

@[simp] theorem State.setLastFlush_cfg (t : Time) : (s.setLastFlush t).cfg = s.cfg := rfl
@[simp] theorem State.setLastFlush_running (t : Time) :
    (s.setLastFlush t).running = s.running := rfl
@[simp] theorem State.setLastFlush_devs (t : Time) : (s.setLastFlush t).devs = s.devs := rfl
@[simp] theorem State.setLastFlush_crcAcc (t : Time) : (s.setLastFlush t).crcAcc = s.crcAcc := rfl
@[simp] theorem State.setLastFlush_fr (t : Time) : (s.setLastFlush t).fr = s.fr := rfl
@[simp] theorem State.setLastFlush_tb (t : Time) : (s.setLastFlush t).tb = s.tb := rfl
@[simp] theorem State.setLastFlush_record (t : Time) : (s.setLastFlush t).record = s.record := rfl
@[simp] theorem State.setLastFlush_clk (t : Time) :
    (s.setLastFlush t).clk = { s.clk with lastFlush := some t } := rfl
@[simp] theorem State.setLastFlush_loop (t : Time) : (s.setLastFlush t).loop = s.loop := rfl
@[simp] theorem State.setLastFlush_result (t : Time) : (s.setLastFlush t).result = s.result := rfl
@[simp] theorem State.setLastFlush_env_inbox (t : Time) :
    (s.setLastFlush t).env.inbox = s.env.inbox := rfl
@[simp] theorem State.setLastFlush_env_rx (t : Time) : (s.setLastFlush t).env.rx = s.env.rx := rfl
@[simp] theorem State.setLastFlush_env_answers (t : Time) :
    (s.setLastFlush t).env.answers = s.env.answers := rfl
@[simp] theorem State.setLastFlush_env_now (t : Time) :
    (s.setLastFlush t).env.now = s.env.now := rfl
@[simp] theorem State.setLastFlush_env_trace (t : Time) :
    (s.setLastFlush t).env.trace = s.env.trace := rfl

/-! ### State.setLoop -/

@[simp] theorem State.setLoop_cfg (l : LoopRegs) : (s.setLoop l).cfg = s.cfg := rfl
@[simp] theorem State.setLoop_running (l : LoopRegs) : (s.setLoop l).running = s.running := rfl
@[simp] theorem State.setLoop_devs (l : LoopRegs) : (s.setLoop l).devs = s.devs := rfl
@[simp] theorem State.setLoop_crcAcc (l : LoopRegs) : (s.setLoop l).crcAcc = s.crcAcc := rfl
@[simp] theorem State.setLoop_fr (l : LoopRegs) : (s.setLoop l).fr = s.fr := rfl
@[simp] theorem State.setLoop_tb (l : LoopRegs) : (s.setLoop l).tb = s.tb := rfl
@[simp] theorem State.setLoop_record (l : LoopRegs) : (s.setLoop l).record = s.record := rfl
@[simp] theorem State.setLoop_clk (l : LoopRegs) : (s.setLoop l).clk = s.clk := rfl
@[simp] theorem State.setLoop_loop (l : LoopRegs) : (s.setLoop l).loop = l := rfl
@[simp] theorem State.setLoop_result (l : LoopRegs) : (s.setLoop l).result = s.result := rfl
@[simp] theorem State.setLoop_env_inbox (l : LoopRegs) :
    (s.setLoop l).env.inbox = s.env.inbox := rfl
@[simp] theorem State.setLoop_env_rx (l : LoopRegs) : (s.setLoop l).env.rx = s.env.rx := rfl
@[simp] theorem State.setLoop_env_answers (l : LoopRegs) :
    (s.setLoop l).env.answers = s.env.answers := rfl
@[simp] theorem State.setLoop_env_now (l : LoopRegs) : (s.setLoop l).env.now = s.env.now := rfl
@[simp] theorem State.setLoop_env_trace (l : LoopRegs) :
    (s.setLoop l).env.trace = s.env.trace := rfl

/-! ### State.freeze -/

@[simp] theorem State.freeze_cfg : s.freeze.cfg = s.cfg := rfl
@[simp] theorem State.freeze_running : s.freeze.running = true := rfl
@[simp] theorem State.freeze_devs : s.freeze.devs = s.devs := rfl
@[simp] theorem State.freeze_crcAcc : s.freeze.crcAcc = s.crcAcc := rfl
@[simp] theorem State.freeze_fr : s.freeze.fr = s.fr := rfl
@[simp] theorem State.freeze_tb : s.freeze.tb = s.tb := rfl
@[simp] theorem State.freeze_record : s.freeze.record = s.record := rfl
@[simp] theorem State.freeze_clk : s.freeze.clk = s.clk := rfl
@[simp] theorem State.freeze_loop : s.freeze.loop = s.loop := rfl
@[simp] theorem State.freeze_result : s.freeze.result = s.result := rfl
@[simp] theorem State.freeze_env_inbox : s.freeze.env.inbox = s.env.inbox := rfl
@[simp] theorem State.freeze_env_rx : s.freeze.env.rx = s.env.rx := rfl
@[simp] theorem State.freeze_env_answers : s.freeze.env.answers = s.env.answers := rfl
@[simp] theorem State.freeze_env_now : s.freeze.env.now = s.env.now := rfl
@[simp] theorem State.freeze_env_trace : s.freeze.env.trace = s.env.trace := rfl

/-! ### State.setRx -/

@[simp] theorem State.setRx_cfg (es : List InEvent) : (s.setRx es).cfg = s.cfg := rfl
@[simp] theorem State.setRx_running (es : List InEvent) : (s.setRx es).running = s.running := rfl
@[simp] theorem State.setRx_devs (es : List InEvent) : (s.setRx es).devs = s.devs := rfl
@[simp] theorem State.setRx_crcAcc (es : List InEvent) : (s.setRx es).crcAcc = s.crcAcc := rfl
@[simp] theorem State.setRx_fr (es : List InEvent) : (s.setRx es).fr = s.fr := rfl
@[simp] theorem State.setRx_tb (es : List InEvent) : (s.setRx es).tb = s.tb := rfl
@[simp] theorem State.setRx_record (es : List InEvent) : (s.setRx es).record = s.record := rfl
@[simp] theorem State.setRx_clk (es : List InEvent) : (s.setRx es).clk = s.clk := rfl
@[simp] theorem State.setRx_loop (es : List InEvent) : (s.setRx es).loop = s.loop := rfl
@[simp] theorem State.setRx_result (es : List InEvent) : (s.setRx es).result = s.result := rfl
@[simp] theorem State.setRx_env_inbox (es : List InEvent) :
    (s.setRx es).env.inbox = s.env.inbox := rfl
@[simp] theorem State.setRx_env_rx (es : List InEvent) : (s.setRx es).env.rx = es := rfl
@[simp] theorem State.setRx_env_answers (es : List InEvent) :
    (s.setRx es).env.answers = s.env.answers := rfl
@[simp] theorem State.setRx_env_now (es : List InEvent) : (s.setRx es).env.now = s.env.now := rfl
@[simp] theorem State.setRx_env_trace (es : List InEvent) :
    (s.setRx es).env.trace = s.env.trace := rfl

/-! ### State.setAnswers -/

@[simp] theorem State.setAnswers_cfg (as : List Answer) : (s.setAnswers as).cfg = s.cfg := rfl
@[simp] theorem State.setAnswers_running (as : List Answer) :
    (s.setAnswers as).running = s.running := rfl
@[simp] theorem State.setAnswers_devs (as : List Answer) : (s.setAnswers as).devs = s.devs := rfl
@[simp] theorem State.setAnswers_crcAcc (as : List Answer) :
    (s.setAnswers as).crcAcc = s.crcAcc := rfl
@[simp] theorem State.setAnswers_fr (as : List Answer) : (s.setAnswers as).fr = s.fr := rfl
@[simp] theorem State.setAnswers_tb (as : List Answer) : (s.setAnswers as).tb = s.tb := rfl
@[simp] theorem State.setAnswers_record (as : List Answer) :
    (s.setAnswers as).record = s.record := rfl
@[simp] theorem State.setAnswers_clk (as : List Answer) : (s.setAnswers as).clk = s.clk := rfl
@[simp] theorem State.setAnswers_loop (as : List Answer) : (s.setAnswers as).loop = s.loop := rfl
@[simp] theorem State.setAnswers_result (as : List Answer) :
    (s.setAnswers as).result = s.result := rfl
@[simp] theorem State.setAnswers_env_inbox (as : List Answer) :
    (s.setAnswers as).env.inbox = s.env.inbox := rfl
@[simp] theorem State.setAnswers_env_rx (as : List Answer) :
    (s.setAnswers as).env.rx = s.env.rx := rfl
@[simp] theorem State.setAnswers_env_answers (as : List Answer) :
    (s.setAnswers as).env.answers = as := rfl
@[simp] theorem State.setAnswers_env_now (as : List Answer) :
    (s.setAnswers as).env.now = s.env.now := rfl
@[simp] theorem State.setAnswers_env_trace (as : List Answer) :
    (s.setAnswers as).env.trace = s.env.trace := rfl

/-! ### State.setInbox -/

@[simp] theorem State.setInbox_cfg (items : List HostItem) : (s.setInbox items).cfg = s.cfg := rfl
@[simp] theorem State.setInbox_running (items : List HostItem) :
    (s.setInbox items).running = s.running := rfl
@[simp] theorem State.setInbox_devs (items : List HostItem) :
    (s.setInbox items).devs = s.devs := rfl
@[simp] theorem State.setInbox_crcAcc (items : List HostItem) :
    (s.setInbox items).crcAcc = s.crcAcc := rfl
@[simp] theorem State.setInbox_fr (items : List HostItem) : (s.setInbox items).fr = s.fr := rfl
@[simp] theorem State.setInbox_tb (items : List HostItem) : (s.setInbox items).tb = s.tb := rfl
@[simp] theorem State.setInbox_record (items : List HostItem) :
    (s.setInbox items).record = s.record := rfl
@[simp] theorem State.setInbox_clk (items : List HostItem) : (s.setInbox items).clk = s.clk := rfl
@[simp] theorem State.setInbox_loop (items : List HostItem) :
    (s.setInbox items).loop = s.loop := rfl
@[simp] theorem State.setInbox_result (items : List HostItem) :
    (s.setInbox items).result = s.result := rfl
@[simp] theorem State.setInbox_env_inbox (items : List HostItem) :
    (s.setInbox items).env.inbox = items := rfl
@[simp] theorem State.setInbox_env_rx (items : List HostItem) :
    (s.setInbox items).env.rx = s.env.rx := rfl
@[simp] theorem State.setInbox_env_answers (items : List HostItem) :
    (s.setInbox items).env.answers = s.env.answers := rfl
@[simp] theorem State.setInbox_env_now (items : List HostItem) :
    (s.setInbox items).env.now = s.env.now := rfl
@[simp] theorem State.setInbox_env_trace (items : List HostItem) :
    (s.setInbox items).env.trace = s.env.trace := rfl

/-! ### State.setNow -/

@[simp] theorem State.setNow_cfg (t : Time) : (s.setNow t).cfg = s.cfg := rfl
@[simp] theorem State.setNow_running (t : Time) : (s.setNow t).running = s.running := rfl
@[simp] theorem State.setNow_devs (t : Time) : (s.setNow t).devs = s.devs := rfl
@[simp] theorem State.setNow_crcAcc (t : Time) : (s.setNow t).crcAcc = s.crcAcc := rfl
@[simp] theorem State.setNow_fr (t : Time) : (s.setNow t).fr = s.fr := rfl
@[simp] theorem State.setNow_tb (t : Time) : (s.setNow t).tb = s.tb := rfl
@[simp] theorem State.setNow_record (t : Time) : (s.setNow t).record = s.record := rfl
@[simp] theorem State.setNow_clk (t : Time) : (s.setNow t).clk = s.clk := rfl
@[simp] theorem State.setNow_loop (t : Time) : (s.setNow t).loop = s.loop := rfl
@[simp] theorem State.setNow_result (t : Time) : (s.setNow t).result = s.result := rfl
@[simp] theorem State.setNow_env_inbox (t : Time) : (s.setNow t).env.inbox = s.env.inbox := rfl
@[simp] theorem State.setNow_env_rx (t : Time) : (s.setNow t).env.rx = s.env.rx := rfl
@[simp] theorem State.setNow_env_answers (t : Time) :
    (s.setNow t).env.answers = s.env.answers := rfl
@[simp] theorem State.setNow_env_now (t : Time) : (s.setNow t).env.now = t := rfl
@[simp] theorem State.setNow_env_trace (t : Time) : (s.setNow t).env.trace = s.env.trace := rfl

/-! ### State.setCfg -/

@[simp] theorem State.setCfg_cfg (cfg : Config) : (s.setCfg cfg).cfg = cfg := rfl
@[simp] theorem State.setCfg_running (cfg : Config) : (s.setCfg cfg).running = s.running := rfl
@[simp] theorem State.setCfg_devs (cfg : Config) : (s.setCfg cfg).devs = s.devs := rfl
@[simp] theorem State.setCfg_crcAcc (cfg : Config) : (s.setCfg cfg).crcAcc = s.crcAcc := rfl
@[simp] theorem State.setCfg_fr (cfg : Config) : (s.setCfg cfg).fr = s.fr := rfl
@[simp] theorem State.setCfg_tb (cfg : Config) : (s.setCfg cfg).tb = s.tb := rfl
@[simp] theorem State.setCfg_record (cfg : Config) : (s.setCfg cfg).record = s.record := rfl
@[simp] theorem State.setCfg_clk (cfg : Config) : (s.setCfg cfg).clk = s.clk := rfl
@[simp] theorem State.setCfg_loop (cfg : Config) : (s.setCfg cfg).loop = s.loop := rfl
@[simp] theorem State.setCfg_result (cfg : Config) : (s.setCfg cfg).result = s.result := rfl
@[simp] theorem State.setCfg_env_inbox (cfg : Config) :
    (s.setCfg cfg).env.inbox = s.env.inbox := rfl
@[simp] theorem State.setCfg_env_rx (cfg : Config) : (s.setCfg cfg).env.rx = s.env.rx := rfl
@[simp] theorem State.setCfg_env_answers (cfg : Config) :
    (s.setCfg cfg).env.answers = s.env.answers := rfl
@[simp] theorem State.setCfg_env_now (cfg : Config) : (s.setCfg cfg).env.now = s.env.now := rfl
@[simp] theorem State.setCfg_env_trace (cfg : Config) :
    (s.setCfg cfg).env.trace = s.env.trace := rfl

/-! ### State.fail -/

@[simp] theorem State.fail_cfg (st : Status) : (s.fail st).cfg = s.cfg := rfl
@[simp] theorem State.fail_running (st : Status) : (s.fail st).running = s.running := rfl
@[simp] theorem State.fail_devs (st : Status) : (s.fail st).devs = s.devs := rfl
@[simp] theorem State.fail_crcAcc (st : Status) : (s.fail st).crcAcc = s.crcAcc := rfl
@[simp] theorem State.fail_fr (st : Status) : (s.fail st).fr = s.fr := rfl
@[simp] theorem State.fail_tb (st : Status) : (s.fail st).tb = s.tb := rfl
@[simp] theorem State.fail_record (st : Status) : (s.fail st).record = s.record := rfl
@[simp] theorem State.fail_clk (st : Status) : (s.fail st).clk = s.clk := rfl
@[simp] theorem State.fail_loop (st : Status) : (s.fail st).loop = s.loop := rfl
@[simp] theorem State.fail_result (st : Status) : (s.fail st).result = s.result := rfl
@[simp] theorem State.fail_env_inbox (st : Status) : (s.fail st).env.inbox = s.env.inbox := rfl
@[simp] theorem State.fail_env_rx (st : Status) : (s.fail st).env.rx = s.env.rx := rfl
@[simp] theorem State.fail_env_answers (st : Status) :
    (s.fail st).env.answers = s.env.answers := rfl
@[simp] theorem State.fail_env_now (st : Status) : (s.fail st).env.now = s.env.now := rfl
@[simp] theorem State.fail_env_trace (st : Status) :
    (s.fail st).env.trace = s.env.trace ++ [.status st] := rfl

/-! ### State.sampleNow -/

@[simp] theorem State.sampleNow_cfg : s.sampleNow.cfg = s.cfg := rfl
@[simp] theorem State.sampleNow_running : s.sampleNow.running = s.running := rfl
@[simp] theorem State.sampleNow_devs : s.sampleNow.devs = s.devs := rfl
@[simp] theorem State.sampleNow_crcAcc : s.sampleNow.crcAcc = s.crcAcc := rfl
@[simp] theorem State.sampleNow_fr : s.sampleNow.fr = s.fr := rfl
@[simp] theorem State.sampleNow_tb : s.sampleNow.tb = s.tb := rfl
@[simp] theorem State.sampleNow_record : s.sampleNow.record = s.record := rfl
@[simp] theorem State.sampleNow_clk : s.sampleNow.clk = s.clk := rfl
@[simp] theorem State.sampleNow_loop : s.sampleNow.loop = { s.loop with t := s.env.now } := rfl
@[simp] theorem State.sampleNow_result : s.sampleNow.result = s.result := rfl
@[simp] theorem State.sampleNow_env_inbox : s.sampleNow.env.inbox = s.env.inbox := rfl
@[simp] theorem State.sampleNow_env_rx : s.sampleNow.env.rx = s.env.rx := rfl
@[simp] theorem State.sampleNow_env_answers : s.sampleNow.env.answers = s.env.answers := rfl
@[simp] theorem State.sampleNow_env_now : s.sampleNow.env.now = s.env.now := rfl
@[simp] theorem State.sampleNow_env_trace : s.sampleNow.env.trace = s.env.trace := rfl

/-! ### Updates of one field on top of each other -/

@[simp] theorem State.emit_emit (es es' : List OutEvent) :
    (s.emit es).emit es' = s.emit (es ++ es') := by
  simp [State.emit, List.append_assoc]

@[simp] theorem State.emit_nil : s.emit [] = s := by simp [State.emit]

@[simp] theorem State.ret_ret (r r' : Result) : (s.ret r).ret r' = s.ret r' := rfl

@[simp] theorem State.setRecord_setRecord (a b : TelemetryRecord) :
    (s.setRecord a).setRecord b = s.setRecord b := rfl

@[simp] theorem State.setDevs_self : s.setDevs s.devs = s := rfl

end Sys2Proof.Machine
end

