-- ==== Sys2Proof/Tests/Slice0.lean ====
section
/-! SUPPORT. The model's own tests: ill-formed terms are refused, words written out from the spec's
encodings decode, small steps give the values of 95_test_vectors.md, and for every statement with
hypotheses a concrete state and operands that meet them. -/

namespace Sys2Proof.Tests

open Sys2Proof.Machine

-- one theorem after the other: a hundred at once take more threads than the host's memory limit gives
set_option Elab.async false

/-! ### Helpers -/

/-- The next state of an outcome, if it is one. -/
def nextOf : Host.Outcome State Fault Refusal → Option State
  | .next s => some s
  | _ => none

/-- The refusal of an outcome, if it is one. -/
def refusalOf : Host.Outcome State Fault Refusal → Option Refusal
  | .refused r => some r
  | _ => none

/-- The fault of an outcome, if it is one. -/
def faultOf : Host.Outcome State Fault Refusal → Option Fault
  | .fault r => some r
  | _ => none

/-- The output events of one instruction. -/
def traceOf (i : Instr) (s : State) : Option (List OutEvent) :=
  (nextOf (exec i s)).map (fun t => t.env.trace)

/-- The result of one instruction. -/
def resultOf (i : Instr) (s : State) : Option Result := (nextOf (exec i s)).map (fun t => t.result)

/-- The state before V61 to V67: one device at address 1, an earlier iteration at time 0; now 10. -/
def block : State :=
  { State.reset with
    devs := [Device.reset 0x01#8]
    clk := { lastTraffic := none, lastFlush := some 0 }
    env := { Env.empty with now := 10 } }

/-- `block` with what the transport will deliver. -/
def blockRx (es : List InEvent) : State := block.setRx es

/-- `block` with the registers of a reader call. -/
def blockFr (r : Reader) : State := block.setFr r

/-- REQ1, the telemetry request to address 1 (V17). -/
def req1 : List Byte := [0x02#8, 0x05#8, 0x01#8, 0x02#8, 0x60#8, 0x01#8, 0x85#8, 0xFC#8, 0x03#8]

/-- The serial number "123456789012345678". -/
def serialA : List Byte :=
  [0x31#8, 0x32#8, 0x33#8, 0x34#8, 0x35#8, 0x36#8, 0x37#8, 0x38#8, 0x39#8, 0x30#8, 0x31#8, 0x32#8,
   0x33#8, 0x34#8, 0x35#8, 0x36#8, 0x37#8, 0x38#8]

/-- A complete record with this serial number and raw `totalEnergy`, every other value a zero. -/
def recordWith (serial : List Byte) (energy : Nat) : TelemetryRecord :=
  fieldNames.map (fun n => (n,
    match n with
    | .ascii .partNumber => .str (List.replicate 11 0x20#8)
    | .ascii .serialNumber => .str serial
    | .u8 _ => .plain 0
    | .u16 _ => .meas 0 0 []
    | .u32 .totalEnergy => .meas energy 0 unitKWh
    | .u32 _ => .meas 0 0 []
    | .raw32 _ => .raw 0))

/-- A device that stored a sample of `recordWith serialA 12345` at time 5 (V49), without its fields. -/
def sampled : Device :=
  { Device.reset 0x01#8 with
    created := true
    serial := some serialA
    lastSample := some 5
    total := some 12345000
    buf := [⟨5, []⟩] }

/-- `block` with that device. -/
def blockSampled : State := block.setDevs [sampled]

/-- PAYLOAD of a telemetry reply with 119 zero bytes of DATA. -/
def zeroPayload : List Byte := [0x60#8, 0x01#8] ++ List.replicate 119 0x00#8

/-- The valid telemetry reply with that PAYLOAD from an address. -/
def zeroReply (id : Byte) : List Byte :=
  frameBytes ACK id zeroPayload (frameCrc crcDefault ACK id zeroPayload) ETX

/-- DATA of `FA`, the telemetry reply of V40. -/
def dataFA : List Byte :=
  [0x45#8, 0x4F#8, 0x45#8, 0x34#8, 0x36#8, 0x30#8, 0x31#8, 0x30#8, 0x32#8, 0x39#8, 0x30#8] ++ serialA
    ++ List.replicate 6 0x00#8
    ++ [0x02#8, 0x15#8, 0x00#8, 0x00#8, 0x01#8, 0x10#8, 0x00#8, 0x00#8, 0x01#8, 0x03#8, 0x00#8, 0x00#8,
        0x09#8, 0x01#8, 0x01#8, 0x9F#8, 0x03#8, 0xB6#8, 0x13#8, 0x86#8, 0x13#8, 0x87#8, 0x09#8, 0x06#8]
    ++ List.replicate 24 0x00#8
    ++ [0x0D#8, 0xB0#8, 0x01#8, 0x18#8, 0x03#8, 0xD5#8, 0x00#8, 0x00#8, 0x00#8, 0x00#8, 0x00#8, 0x00#8,
        0x03#8, 0xB6#8, 0xDE#8, 0xAD#8, 0xBE#8, 0xEF#8, 0x00#8, 0x00#8, 0x10#8, 0xE1#8, 0x00#8, 0x00#8,
        0x46#8, 0x50#8, 0x00#8, 0x00#8, 0x30#8, 0x39#8, 0x00#8, 0x00#8, 0x01#8, 0x02#8, 0x00#8, 0x29#8]

/-! ### Ill-formed terms -/

theorem test_wf_req_long : (Instr.frameReq 1#8 (List.replicate 256 0#8) 0#16 ETX).wf = false := by
  decide +kernel
theorem test_wf_req_telemetry : (Instr.frameReq 1#8 [0x60#8, 0x01#8] 0#16 ETX).wf = false := by decide
theorem test_wf_reply_telemetry_short :
    (Instr.frameReplyTelemetry 1#8 (List.replicate 118 0#8) 0#16 ETX).wf = false := by decide +kernel
theorem test_wf_badlen_of_119 :
    (Instr.frameReplyBadlen 1#8 (List.replicate 119 0#8) 0#16 ETX).wf = false := by decide +kernel
theorem test_wf_badlen_long :
    (Instr.frameReplyBadlen 1#8 (List.replicate 254 0#8) 0#16 ETX).wf = false := by decide +kernel
theorem test_wf_other_telemetry :
    (Instr.frameReplyOther 1#8 [0x60#8, 0x01#8, 0#8] 0#16 ETX).wf = false := by decide
theorem test_wf_other_long :
    (Instr.frameReplyOther 1#8 (List.replicate 256 0#8) 0#16 ETX).wf = false := by decide +kernel
theorem test_wf_crcCheck_short : (Instr.crcCheck (List.replicate 8 0#8) 2).wf = false := by decide
theorem test_wf_fvHeader_three : (Instr.fvHeader [0x02#8, 0x05#8, 0x01#8]).wf = false := by decide
theorem test_wf_fvHeader_short : (Instr.fvHeader [0x02#8, 0x05#8, 0x01#8, 0x02#8]).wf = false := by
  decide
theorem test_wf_decode_request : (Instr.tcDecode req1 (header req1)).wf = false := by decide
theorem test_wf_decode_header :
    (Instr.tcDecode [0x02#8, 0x06#8, 0x01#8, 0x00#8, 0xE1#8, 0x91#8, 0x03#8]
      ⟨0x06#8, 0x02#8, 0, 4, 4, 6, 0, none, none⟩).wf = false := by decide
theorem test_wf_decode_short :
    (Instr.tcDecode [0x02#8, 0x06#8] (header [0x02#8, 0x06#8])).wf = false := by decide
theorem test_wf_ascii_width : (Instr.tcUnpackAscii (List.replicate 12 0x20#8)).wf = false := by decide
theorem test_wf_pad_width : (Instr.tcUnpackPad [0#8, 0#8, 0#8]).wf = false := by decide
theorem test_wf_encode_zero : (Instr.tcEncode 0#8 [0x60#8, 0x01#8]).wf = false := by decide
theorem test_wf_encode_long : (Instr.tcEncode 1#8 (List.replicate 256 0#8)).wf = false := by
  decide +kernel
theorem test_wf_accept_incomplete :
    (Instr.saAccept 0 [(.u8 .fw1Major, .plain 1)] 5).wf = false := by decide

/-! ### Words written out from the spec

Frames: 30_encoding.md R90 (STX, kind, deviceId, length, PAYLOAD, CRC low and high, terminator).
Operations: the opsel code of R112, then the operands of log 2. -/

theorem test_word_frameReqTelemetry :
    decode .frame .hunt req1 = .instr (.frameReqTelemetry 1#8 0xFC85#16 ETX) := by decide
theorem test_word_frameReq :
    decode .frame .hunt [0x02#8, 0x05#8, 0x01#8, 0x00#8, 0x11#8, 0x91#8, 0x03#8]
      = .instr (.frameReq 1#8 [] 0x9111#16 ETX) := by decide
theorem test_word_frameReplyTelemetry :
    decode .frame .hunt ([0x02#8, 0x06#8, 0x09#8, 0x79#8, 0x60#8, 0x01#8] ++ List.replicate 119 0xAA#8
        ++ [0x34#8, 0x12#8, 0x03#8])
      = .instr (.frameReplyTelemetry 9#8 (List.replicate 119 0xAA#8) 0x1234#16 ETX) := by
  decide +kernel
theorem test_word_frameReplyBadlen :
    decode .frame .hunt [0x02#8, 0x06#8, 0x01#8, 0x03#8, 0x60#8, 0x01#8, 0xAA#8, 0xBC#8, 0x20#8, 0x03#8]
      = .instr (.frameReplyBadlen 1#8 [0xAA#8] 0x20BC#16 ETX) := by decide
theorem test_word_frameReplyOther :
    decode .frame .hunt [0x02#8, 0x06#8, 0x01#8, 0x02#8, 0x60#8, 0x02#8, 0x81#8, 0xFD#8, 0x03#8]
      = .instr (.frameReplyOther 1#8 [0x60#8, 0x02#8] 0xFD81#16 ETX) := by decide
theorem test_word_frame_terminator_kept :
    decode .frame .hunt [0x02#8, 0x06#8, 0x01#8, 0x00#8, 0xE1#8, 0x91#8, 0x00#8]
      = .instr (.frameReplyOther 1#8 [] 0x91E1#16 0x00#8) := by decide
theorem test_word_frame_bad_kind :
    decode .frame .hunt [0x02#8, 0x15#8, 0x01#8, 0x00#8, 0xE1#8, 0x91#8, 0x03#8] = .reject .badKind := by
  decide
theorem test_word_frame_short :
    decode .frame .hunt [0x02#8, 0x05#8, 0x01#8, 0x02#8, 0x60#8, 0x01#8, 0x85#8, 0xFC#8]
      = .reject .shortFrame := by decide
theorem test_word_reset : decode .operation .hunt [0x00#8] = .instr .reset := by decide
theorem test_word_run : decode .operation .hunt [0x01#8] = .instr .run := by decide
theorem test_word_shutdown : decode .operation .hunt [0x02#8] = .instr .shutdown := by decide
theorem test_word_fatal : decode .operation .hunt [0x03#8] = .instr .fatal := by decide
theorem test_word_crcReset : decode .operation .hunt [0x10#8] = .instr .crcReset := by decide
theorem test_word_crcByte : decode .operation .hunt [0x11#8, 0xA5#8] = .instr (.crcByte 0xA5#8) := by
  decide
theorem test_word_crcBlock :
    decode .operation .hunt [0x12#8, 0x02#8, 0x01#8, 0x00#8] = .instr (.crcBlock [0x01#8, 0x00#8]) := by
  decide
theorem test_word_crcValue : decode .operation .hunt [0x13#8] = .instr .crcValue := by decide
theorem test_word_crcCheck :
    decode .operation .hunt ([0x14#8, 0x09#8] ++ req1 ++ [0x02#8]) = .instr (.crcCheck req1 2) := by
  decide
theorem test_word_frStart : decode .operation .hunt [0x20#8] = .instr .frStart := by decide
theorem test_word_frByteHunt :
    decode .operation .hunt [0x21#8, 0xFF#8] = .instr (.frByteHunt 0xFF#8) := by decide
theorem test_word_frByteKind :
    decode .operation .kind [0x21#8, 0x06#8] = .instr (.frByteKind 0x06#8) := by decide
theorem test_word_frByteHdr :
    decode .operation .hdr [0x21#8, 0x79#8] = .instr (.frByteHdr 0x79#8) := by decide
theorem test_word_frByteBody :
    decode .operation .body [0x21#8, 0x60#8] = .instr (.frByteBody 0x60#8) := by decide
theorem test_word_frByteLast :
    decode .operation .last [0x21#8, 0x03#8] = .instr (.frByteLast 0x03#8) := by decide
theorem test_word_frTimeout : decode .operation .hunt [0x22#8] = .instr .frTimeout := by decide
theorem test_word_frFault : decode .operation .hunt [0x23#8] = .instr .frFault := by decide
theorem test_word_fvValidate :
    decode .operation .hunt [0x30#8, 0x02#8, 0x03#8, 0x15#8] = .instr (.fvValidate [0x03#8, 0x15#8]) := by
  decide
theorem test_word_fvHeader :
    decode .operation .hunt ([0x31#8, 0x09#8] ++ req1) = .instr (.fvHeader req1) := by decide
theorem test_word_tcDecode :
    decode .operation .hunt [0x40#8, 0x01#8, 0x02#8, 0x06#8, 0x01#8, 0x79#8, 0x04#8, 0x7D#8, 0x06#8,
        0x77#8, 0x01#8, 0x60#8, 0x01#8, 0x01#8]
      = .instr (.tcDecode [0x02#8] ⟨0x06#8, 0x01#8, 121, 4, 125, 6, 119, some 0x60#8, some 0x01#8⟩) := by
  decide
theorem test_word_tcUnpackAscii :
    decode .operation .hunt [0x41#8, 0x02#8, 0x45#8, 0x4F#8]
      = .instr (.tcUnpackAscii [0x45#8, 0x4F#8]) := by decide
theorem test_word_tcUnpackU8 :
    decode .operation .hunt [0x42#8, 0x02#8] = .instr (.tcUnpackU8 0x02#8) := by decide
theorem test_word_tcUnpackU16 :
    decode .operation .hunt [0x43#8, 0x19#8, 0x09#8, 0x01#8]
      = .instr (.tcUnpackU16 .temperature 0x09#8 0x01#8) := by decide
theorem test_word_tcUnpackU32 :
    decode .operation .hunt [0x44#8, 0x02#8, 0x00#8, 0x00#8, 0x30#8, 0x39#8]
      = .instr (.tcUnpackU32 .totalEnergy 0x00#8 0x00#8 0x30#8 0x39#8) := by decide
theorem test_word_tcUnpackRaw32 :
    decode .operation .hunt [0x45#8, 0xDE#8, 0xAD#8, 0xBE#8, 0xEF#8]
      = .instr (.tcUnpackRaw32 0xDE#8 0xAD#8 0xBE#8 0xEF#8) := by decide
theorem test_word_tcUnpackPad :
    decode .operation .hunt [0x46#8, 0x02#8, 0xAA#8, 0xBB#8]
      = .instr (.tcUnpackPad [0xAA#8, 0xBB#8]) := by decide
theorem test_word_tcScale :
    decode .operation .hunt [0x47#8, 0x81#8, 0x12#8, 0x01#8, 0x01#8, 0x56#8]
      = .instr (.tcScale 2305 (-1) unitV) := by decide
theorem test_word_tcEncode :
    decode .operation .hunt [0x48#8, 0x07#8, 0x02#8, 0x60#8, 0x01#8]
      = .instr (.tcEncode 7#8 [0x60#8, 0x01#8]) := by decide
theorem test_word_psTick :
    decode .operation .hunt [0x50#8, 0xD8#8, 0x04#8] = .instr (.psTick 600) := by decide
theorem test_word_psNoteTraffic :
    decode .operation .hunt [0x51#8, 0x0A#8] = .instr (.psNoteTraffic 10) := by decide
theorem test_word_saAccept :
    decode .operation .hunt [0x60#8, 0x01#8, 0x01#8, 0x02#8, 0x01#8, 0x07#8, 0x05#8]
      = .instr (.saAccept 1 [(.u8 .fw1Major, .plain 7)] 5) := by decide
theorem test_word_saFlush : decode .operation .hunt [0x61#8, 0x0A#8] = .instr (.saFlush 10) := by decide
theorem test_word_saFinalFlush :
    decode .operation .hunt [0x62#8, 0x64#8] = .instr (.saFinalFlush 100) := by decide
theorem test_word_unknown_opsel :
    decode .operation .hunt [0x04#8] = .reject (.unknownOpsel 0x04#8) := by decide
theorem test_word_missing_operand :
    decode .operation .hunt [0x12#8, 0x02#8, 0x01#8] = .reject (.badOperands 0x12#8) := by decide

/-! ### Table words -/

theorem test_table_crcValue : decodeTableWord 8 0x13 = some .crcValue := by decide +kernel
theorem test_table_reply_telemetry :
    (decodeTableWord 48 0x020600796001).map (fun i => i.frameRow) = some (some 2) := by decide +kernel
theorem test_fetch_run :
    (nextOf (step (State.reset.withFetchWord 8 0x01))).map (fun t => t.env.trace)
      = some [.status .noDataTimeout, .tx req1] := by decide +kernel
theorem test_fetch_frByte :
    (nextOf (step (State.reset.withFetchWord 8 0x21))).map (fun t => t.fr)
      = some ⟨.hunt, [], 0, true⟩ := by decide +kernel
theorem test_fetch_other_frame :
    (nextOf (step (State.reset.withFetchWord 48 0x020600000000))).map (fun t => t.env.trace)
      = some [.status .badTerminator] := by decide +kernel
theorem test_core_reset_is_quiet : (nextOf (core.step core.reset)).isSome = true := by decide +kernel

/-! ### Steps, with the values of 95_test_vectors.md -/

/-- V1. -/
theorem test_crcReset :
    (nextOf (exec .crcReset (State.reset.setAcc 0x8303#16))).map (fun t => t.crcAcc)
      = some 0x0000#16 := by decide +kernel
/-- V2. -/
theorem test_crcByte :
    (nextOf (exec (.crcByte 0x01#8) State.reset)).map (fun t => t.crcAcc) = some 0x8303#16 := by
  decide +kernel
/-- R132, by hand: unreflected, the byte's low bit reaches bit 15 after seven steps. -/
theorem test_crcByte_unreflected :
    (nextOf (exec (.crcByte 0x01#8) (State.reset.setCfg { State.reset.cfg with
        crc := ⟨0x1021#16, 0x0000#16, false, false, 0x0000#16⟩ }))).map (fun t => t.crcAcc)
      = some 0x1021#16 := by decide +kernel
/-- V3. -/
theorem test_crcValue :
    resultOf .crcValue (State.reset.setAcc 0x8303#16) = some (.word 0xC0C1#16) := by decide +kernel
/-- V4, "123456789". -/
theorem test_crcBlock :
    resultOf (.crcBlock [0x31#8, 0x32#8, 0x33#8, 0x34#8, 0x35#8, 0x36#8, 0x37#8, 0x38#8, 0x39#8])
      State.reset = some (.word 0xBB3D#16) := by decide +kernel
/-- V11, the fifth set: an initial value, no polynomial of the default, and a final xor. -/
theorem test_crcBlock_other_parameters :
    crc16 ⟨0x1021#16, 0xFFFF#16, true, true, 0xFFFF#16⟩
      [0x31#8, 0x32#8, 0x33#8, 0x34#8, 0x35#8, 0x36#8, 0x37#8, 0x38#8, 0x39#8] = 0x906E#16 := by
  decide +kernel
/-- V7, first and third. -/
theorem test_crcCheck : resultOf (.crcCheck req1 2) State.reset = some .crcMatch := by decide +kernel
theorem test_crcCheck_swapped :
    resultOf (.crcCheck [0x02#8, 0x05#8, 0x01#8, 0x02#8, 0x60#8, 0x01#8, 0xFC#8, 0x85#8, 0x03#8] 2)
      State.reset = some (.crcMismatch 0xFC85#16 0x85FC#16) := by decide +kernel
theorem test_frStart :
    (nextOf (exec .frStart State.reset)).map (fun t => t.fr) = some ⟨.hunt, [], 0, false⟩ := by
  decide +kernel
/-- R153, its example. -/
theorem test_frByteHunt_garbage :
    (nextOf (exec (.frByteHunt 0xFF#8) (blockFr readerStart))).map (fun t => t.fr)
      = some ⟨.hunt, [], 0, true⟩ := by decide +kernel
theorem test_frByteHunt_stx :
    (nextOf (exec (.frByteHunt 0x02#8) (blockFr readerStart))).map (fun t => t.fr)
      = some ⟨.kind, [0x02#8], 0, true⟩ := by decide +kernel
/-- R154, its examples. -/
theorem test_frByteKind :
    (nextOf (exec (.frByteKind 0x06#8) (blockFr ⟨.kind, [0x02#8], 0, true⟩))).map (fun t => t.fr)
      = some ⟨.hdr, [0x02#8, 0x06#8], 2, true⟩ := by decide +kernel
theorem test_frByteKind_second_stx :
    (nextOf (exec (.frByteKind 0x02#8) (blockFr ⟨.kind, [0x02#8], 0, true⟩))).map (fun t => t.fr)
      = some ⟨.hunt, [], 0, true⟩ := by decide +kernel
/-- R155, its example. -/
theorem test_frByteHdr_length :
    (nextOf (exec (.frByteHdr 0x79#8) (blockFr ⟨.hdr, [0x02#8, 0x06#8, 0x01#8], 1, true⟩))).map
        (fun t => t.fr)
      = some ⟨.body, [0x02#8, 0x06#8, 0x01#8, 0x79#8], 124, true⟩ := by decide +kernel
/-- R156, its example. -/
theorem test_frByteBody :
    (nextOf (exec (.frByteBody 0x60#8)
        (blockFr ⟨.body, [0x02#8, 0x06#8, 0x01#8, 0x79#8], 124, true⟩))).map (fun t => t.fr)
      = some ⟨.body, [0x02#8, 0x06#8, 0x01#8, 0x79#8, 0x60#8], 123, true⟩ := by decide +kernel
/-- R159: the last byte of REQ1. -/
theorem test_frByteLast :
    resultOf (.frByteLast 0x03#8) (blockFr ⟨.body, req1.take 8, 1, true⟩)
      = some (.reader (.candidate req1)) := by decide +kernel
/-- V12, V14. -/
theorem test_frTimeout_nothing_taken :
    resultOf .frTimeout (blockFr readerStart) = some (.reader .noDataTimeout) := by decide +kernel
theorem test_frTimeout_stx_taken :
    resultOf .frTimeout (blockFr ⟨.kind, [0x02#8], 0, true⟩) = some (.reader .noDataFraming) := by
  decide +kernel
/-- V24. -/
theorem test_frFault :
    (nextOf (exec .frFault (blockFr ⟨.hdr, [0x02#8, 0x06#8, 0x01#8], 1, true⟩))).map (fun t => t.fr.cb)
      = some [] := by decide +kernel
/-- V26a, V30b. -/
theorem test_fvValidate_longer_frame :
    resultOf (.fvValidate [0x02#8, 0x05#8, 0x01#8, 0x00#8, 0x11#8, 0x91#8, 0x03#8, 0x00#8, 0xF1#8, 0x30#8,
        0x03#8]) State.reset
      = some (.verdict (.validRequest ⟨0x05#8, 0x01#8, 0, 4, 4, 6, 0, none, none⟩)) := by decide +kernel
theorem test_fvValidate_crc :
    resultOf (.fvValidate [0x02#8, 0x05#8, 0x01#8, 0x02#8, 0x60#8, 0x00#8, 0x85#8, 0xFC#8, 0x03#8])
      State.reset = some (.verdict (.invalid (.crcMismatch 0x3C44#16 0xFC85#16))) := by decide +kernel
/-- R188, its example; V28b. -/
theorem test_fvHeader :
    resultOf (.fvHeader req1) State.reset
      = some (.header ⟨0x05#8, 0x01#8, 2, 4, 6, 6, 0, some 0x60#8, some 0x01#8⟩) := by decide +kernel
theorem test_fvHeader_one_byte :
    resultOf (.fvHeader [0x02#8, 0x06#8, 0x01#8, 0x01#8, 0x60#8, 0x50#8, 0xF0#8, 0x03#8]) State.reset
      = some (.header ⟨0x06#8, 0x01#8, 1, 4, 5, 6, 0, none, none⟩) := by decide +kernel
/-- R202, its example. -/
theorem test_tcDecode_other_command :
    resultOf (.tcDecode [0x02#8, 0x06#8, 0x01#8, 0x02#8, 0x60#8, 0x02#8, 0x81#8, 0xFD#8, 0x03#8]
        ⟨0x06#8, 0x01#8, 2, 4, 6, 6, 0, some 0x60#8, some 0x02#8⟩) State.reset
      = some (.decoded (.unexpectedCommand (some 0x60#8) (some 0x02#8))) := by decide +kernel
/-- V40's place of `ac1V` and of `totalEnergy`: DATA offsets 47 and 109. -/
theorem test_unpackRecord_places :
    let c := List.replicate 53 0x00#8 ++ [0x09#8, 0x01#8] ++ List.replicate 60 0x00#8
      ++ [0x00#8, 0x00#8, 0x30#8, 0x39#8] ++ List.replicate 9 0x00#8
    (unpackRecord State.reset.cfg c).lookup (.u16 .ac1V) = some (.meas 2305 (-1) unitV)
      ∧ (unpackRecord State.reset.cfg c).lookup (.u32 .totalEnergy) = some (.meas 12345 0 unitKWh) := by
  decide +kernel
theorem test_tcUnpackAscii :
    resultOf (.tcUnpackAscii [0x45#8, 0x4F#8, 0x00#8]) State.reset
      = some (.value (.str [0x45#8, 0x4F#8, 0x00#8])) := by decide +kernel
theorem test_tcUnpackU8 :
    resultOf (.tcUnpackU8 0xFF#8) State.reset = some (.value (.plain 255)) := by decide +kernel
/-- R208, its example and its corner case. -/
theorem test_tcUnpackU16 :
    resultOf (.tcUnpackU16 .ac1V 0x09#8 0x01#8) State.reset
      = some (.value (.meas 2305 (-1) unitV)) := by decide +kernel
theorem test_tcUnpackU16_unsigned :
    resultOf (.tcUnpackU16 .temperature 0xFF#8 0xFF#8) State.reset
      = some (.value (.meas 65535 0 unitDegC)) := by decide +kernel
theorem test_tcUnpackU32 :
    resultOf (.tcUnpackU32 .totalEnergy 0x00#8 0x00#8 0x30#8 0x39#8) State.reset
      = some (.value (.meas 12345 0 unitKWh)) := by decide +kernel
theorem test_tcUnpackRaw32 :
    resultOf (.tcUnpackRaw32 0xDE#8 0xAD#8 0xBE#8 0xEF#8) State.reset
      = some (.value (.raw 3735928559)) := by decide +kernel
theorem test_tcUnpackPad :
    resultOf (.tcUnpackPad [0xAA#8, 0xBB#8]) (State.reset.ret .crcMatch) = some .nothing := by
  decide +kernel
/-- V39: 230.5, and 655.35. -/
theorem test_tcScale : scaledValue 2305 (-1) = mkRat 461 2 := by decide +kernel
theorem test_tcScale_u16_max : scaledValue 65535 (-2) = mkRat 65535 100 := by decide +kernel
/-- R225 and R226, their examples. -/
theorem test_tcEncode :
    (nextOf (exec (.tcEncode 1#8 [0x60#8, 0x01#8]) State.reset)).map (fun t => t.tb) = some req1 := by
  decide +kernel
theorem test_tcEncode_zero :
    resultOf (.tcEncode 0#8 [0x60#8, 0x01#8]) State.reset = some (.encodeRefused 0#8 2) := by
  decide +kernel
/-- R250 (a), and the floor at exactly one second (R241). -/
theorem test_psTick_busy :
    traceOf (.psTick 10) (block.setLastTraffic 10) = some [] := by decide +kernel
theorem test_psTick_floor :
    traceOf (.psTick 11) (block.setLastTraffic 10) = some [.tx req1] := by decide +kernel
theorem test_psNoteTraffic :
    (nextOf (exec (.psNoteTraffic 10) block)).map (fun t => t.clk) = some ⟨some 10, some 0⟩ := by
  decide +kernel
/-- V49, V50. -/
theorem test_saAccept_first :
    traceOf (.saAccept 0 (recordWith serialA 12345) 5) block
      = some [.reportInit 0 (some serialA), .status (.sampleStored 0)] := by decide +kernel
theorem test_saAccept_gated :
    (nextOf (exec (.saAccept 0 (recordWith serialA 12346) 64) blockSampled)).map
        (fun t => (t.devs, t.env.trace))
      = some ([sampled], [.status (.sampleGated 0)]) := by decide +kernel
/-- V54, V56. -/
theorem test_saFlush :
    traceOf (.saFlush 600) blockSampled
      = some [.persist 0 (some serialA) [⟨5, []⟩], .reportTotal 0 12345000] := by decide +kernel
theorem test_saFlush_persist_fails :
    (nextOf (exec (.saFlush 600) (blockSampled.setAnswers [.fail, .ok]))).map (fun t => t.devs)
      = some [{ sampled with lastReported := some 12345000 }] := by decide +kernel
/-- V58. -/
theorem test_saFinalFlush :
    traceOf (.saFinalFlush 100) blockSampled
      = some [.persist 0 (some serialA) [⟨5, []⟩]] := by decide +kernel
/-- V63. -/
theorem test_frameReqTelemetry :
    traceOf (.frameReqTelemetry 1#8 0xFC85#16 ETX) block = some [.status (.validRequest 1#8)] := by
  decide +kernel
theorem test_frameReq :
    traceOf (.frameReq 1#8 [] 0x9111#16 ETX) block = some [.status (.validRequest 1#8)] := by
  decide +kernel
/-- V65's kind of damage. -/
theorem test_frameReplyTelemetry_terminator :
    traceOf (.frameReplyTelemetry 1#8 (List.replicate 119 0#8) 0#16 0#8) block
      = some [.status .badTerminator] := by decide +kernel
set_option maxRecDepth 20000 in
/-- V64: 124 bytes under the CRC, which is deeper than the default allows. -/
theorem test_frameReplyTelemetry :
    (nextOf (exec (.frameReplyTelemetry 1#8 dataFA 0xBFB6#16 ETX) block)).map
        (fun t => (t.env.trace.drop 1, t.devs.map (·.total)))
      = some ([.reportInit 0 (some serialA), .status (.sampleStored 0)], [some 12345000]) := by
  decide +kernel
/-- V35, V34. -/
theorem test_frameReplyBadlen :
    traceOf (.frameReplyBadlen 1#8 [] 0xFCC1#16 ETX) block
      = some [.status (.decodeLengthMismatch 1#8 0)] := by decide +kernel
theorem test_frameReplyOther :
    traceOf (.frameReplyOther 1#8 [0x60#8, 0x02#8] 0xFD81#16 ETX) block
      = some [.status (.unexpectedCommand 1#8 (some 0x60#8) (some 0x02#8))] := by decide +kernel
/-- V61. -/
theorem test_run_timeout :
    traceOf .run (blockRx [.timeout]) = some [.status .noDataTimeout, .tx req1] := by decide +kernel
/-- V67. -/
theorem test_run_fault :
    (nextOf (exec .run (blockRx [.byte 0x02#8, .byte 0x06#8, .transportFault]))).map
        (fun t => (t.loop, t.clk, t.env.trace))
      = some (⟨true, true, 10⟩, ⟨none, some 10⟩, [.status .fatal]) := by decide +kernel
theorem test_shutdown :
    traceOf .shutdown blockSampled
      = some [.persist 0 (some serialA) [⟨5, []⟩], .status .shutdownDone] := by decide +kernel
theorem test_fatal :
    (nextOf (exec .fatal blockSampled)).map (fun t => t.loop) = some ⟨true, true, 0⟩ := by decide +kernel
theorem test_reset :
    (nextOf (exec .reset blockSampled)).map (fun t => (t.devs, t.clk, t.env.now))
      = some ([], ⟨none, none⟩, 10) := by decide +kernel
theorem test_configuration_frozen :
    refusalOf (step (block.freeze.setInbox [.cfg (.nDev 2)])) = some .configFrozen := by decide +kernel
/-- R322, R281 and R63: what the operation port takes. -/
theorem test_port_in_a_run :
    refusalOf (step (block.freeze.setInbox [.op [0x51#8, 0x0A#8]])) = some .unitOperation := by
  decide +kernel
theorem test_port_while_reading :
    refusalOf (step ((blockFr readerStart).setInbox [.op [0x61#8, 0x0A#8]])) = some .readerBusy := by
  decide +kernel
/-- R288: FATAL is never the host's, after FR.FAULT neither. -/
theorem test_port_fatal :
    refusalOf (step (block.setInbox [.op [0x03#8]])) = some .fatalByHost
      ∧ refusalOf (step ((block.ret (.reader .fault)).setInbox [.op [0x03#8]])) = some .fatalByHost := by
  decide +kernel
/-- R344: between the RUNs of a run a frame given by itself does nothing. -/
theorem test_frame_in_a_run :
    refusalOf (step (block.freeze.setInbox [.frame req1])) = some .frameInRun := by decide +kernel
theorem test_fetch_fatal :
    (nextOf (step (State.reset.withFetchWord 8 0x03))).map (fun t => t.env.trace)
      = some [.status .fatal] := by decide +kernel
/-- Log 40: a RUN that a halted block ignores begins no run. -/
theorem test_ignored_run_begins_no_run :
    (nextOf (step ((block.setLoop ⟨true, false, 10⟩).setInbox [.op [0x01#8]]))).map (fun t => t.running)
      = some false := by decide +kernel
theorem test_psTick_while_reading :
    refusalOf (exec (.psTick 10) (blockFr readerStart)) = some .readerBusy := by decide +kernel
/-- R112: the event codes. -/
theorem test_event_codes :
    [InEvent.byte 0xA5#8, .timeout, .transportFault].map evCode = [0#2, 1#2, 2#2]
      ∧ [0#2, 1#2, 2#2, 3#2].map (fun ev => eventOf ev 0xA5#8)
        = [some (.byte 0xA5#8), some .timeout, some .transportFault, none] := by decide
/-- R301: the column "class", in the table's order. -/
theorem test_status_classes :
    [Status.noDataTimeout, .noDataFraming, .badStart, .badKind, .incomplete, .badTerminator,
        .crcMismatch 0#16 0#16, .validRequest 1#8, .unexpectedCommand 1#8 none none,
        .decodeLengthMismatch 1#8 0, .unknownDevice 1#8, .sampleStored 0, .sampleGated 0,
        .bufferOverflow 0, .persistFailed 0, .reportFailed 0, .encodeRefused 0#8 2, .shutdownDone,
        .fatal].map statusClass
      = [.a, .b, .b, .b, .c, .c, .d, .none, .openQuestion, .e, .none, .none, .none, .none, .f, .f,
         .none, .none, .unrecoverable] := by decide
theorem test_illegal_operation :
    faultOf (step (block.setInbox [.op [0x04#8]])) = some (.illegalOperation (.unknownOpsel 0x04#8)) := by
  decide +kernel

/-! ### Witnesses

For each statement of the obligations with hypotheses, a state and operands that meet them all, and for
a statement of several clauses one for each, at a boundary of its range. -/

theorem witness_ResetOperationRestoresResetValues :
    blockSampled.fr.phase = .idle ∧ (blockFr readerStart).fr.phase ≠ .idle := by decide +kernel

theorem witness_DecodeOfEncodeIsTheInstruction :
    (Instr.frameReq 1#8 (List.replicate 255 0#8) 0x1234#16 0#8).wf = true
      ∧ (Instr.tcDecode [0x02#8, 0x06#8, 0x01#8, 0x00#8, 0xE1#8, 0x91#8, 0x03#8]
          ⟨0x06#8, 0x01#8, 0, 4, 4, 6, 0, none, none⟩).wf = true
      ∧ (Instr.saAccept 0 (recordWith serialA 4294967295) 5).wf = true := by decide +kernel

theorem witness_FirstFittingFrameRowIsTheConstructors :
    (Instr.frameReplyBadlen 1#8 (List.replicate 118 0#8) 0#16 ETX).wf = true
      ∧ (Instr.frameReplyBadlen 1#8 (List.replicate 253 0#8) 0#16 ETX).wf = true
      ∧ (Instr.frameReplyOther 1#8 [] 0#16 ETX).wf = true
      ∧ (Instr.frameReplyOther 1#8 [0x60#8] 0#16 ETX).wf = true
      ∧ (Instr.frameReplyTelemetry 1#8 dataFA 0#16 ETX).wf = true
      ∧ (Instr.frameReqTelemetry 1#8 0#16 ETX).space = .frame := by decide +kernel

theorem witness_StepRunsTheDecodedInstruction_operation :
    (block.setInbox [.op [0x13#8]]).env.inbox = .op [0x13#8] :: []
      ∧ decode .operation ((selectRow block.fr).getD .hunt) [0x13#8] = .instr .crcValue
      ∧ performer .crcValue = .crc ∧ block.running = false ∧ block.fr.phase = .idle
      ∧ block.freeze.running = true ∧ (blockFr readerStart).fr.phase ≠ .idle
      ∧ performer .fatal = .loop ∧ performer .run = .host := by decide +kernel

theorem witness_StepRunsTheDecodedInstruction_frame :
    (block.setInbox [.frame req1, .time 11]).env.inbox = .frame req1 :: [.time 11]
      ∧ decode .frame .hunt req1 = .instr (.frameReqTelemetry 1#8 0xFC85#16 ETX)
      ∧ performer (.frameReqTelemetry 1#8 0xFC85#16 ETX) = .bus
      ∧ block.running = false ∧ block.freeze.running = true ∧ block.env.inbox = [] := by decide +kernel

theorem witness_CrcCheckComparesAllSixteenBits :
    2 + 7 ≤ req1.length ∧ (req1.take 8).length < 2 + 7 := by decide

theorem witness_ReflectionsReverseTheBits : 7 < 8 ∧ 15 < 16 := by decide

theorem witness_RightShiftingCrcIsTheCrc :
    crcDefault.refin = true ∧ crcDefault.refout = true := by decide

theorem witness_CrcIsLinearInTheMessage :
    [0x05#8, 0x01#8, 0x02#8, 0x60#8, 0x01#8].length = [0x05#8, 0x01#8, 0x02#8, 0x60#8, 0x00#8].length := by
  decide

theorem witness_CrcOfAClosedMessageIsZero :
    crcDefault.refin = true ∧ crcDefault.refout = true ∧ crcDefault.xorout = 0#16 := by decide

theorem witness_FlippedBitChangesTheCrc :
    crcDefault.poly.getLsbD 0 = true ∧ 4 < [0x05#8, 0x01#8, 0x02#8, 0x60#8, 0x01#8].length ∧ 7 < 8 := by
  decide

theorem witness_FrStartBeginsAReaderCall :
    block.fr.phase = .idle ∧ (blockFr ⟨.kind, [0x02#8], 0, true⟩).fr.phase ≠ .idle := by decide +kernel

theorem witness_FrByteHuntsForStx : (blockFr readerStart).fr.phase = .hunt := by decide +kernel

theorem witness_FrByteTakesAKindByte :
    (blockFr ⟨.kind, [0x02#8], 0, true⟩).fr.phase = .kind := by decide +kernel

theorem witness_FrByteTakesTheHeader :
    (blockFr ⟨.hdr, [0x02#8, 0x06#8], 2, true⟩).fr.phase = .hdr
      ∧ (blockFr ⟨.hdr, [0x02#8, 0x06#8, 0x01#8], 1, true⟩).fr.phase = .hdr := by decide +kernel

theorem witness_FrByteTakesTheBody :
    (blockFr ⟨.body, req1.take 7, 2, true⟩).fr.phase = .body
      ∧ 1 < (blockFr ⟨.body, req1.take 7, 2, true⟩).fr.need := by decide +kernel

theorem witness_FrByteReturnsTheCandidate :
    (blockFr ⟨.body, req1.take 8, 1, true⟩).fr.phase = .body
      ∧ (blockFr ⟨.body, req1.take 8, 1, true⟩).fr.need = 1
      ∧ readerOk (blockFr ⟨.body, req1.take 8, 1, true⟩).fr = true := by decide +kernel

theorem witness_TimeoutAndFaultEndTheCall :
    (blockFr readerStart).fr.phase ≠ .idle ∧ (blockFr readerStart).fr.consumed = false
      ∧ (blockFr ⟨.kind, [0x02#8], 0, true⟩).fr.phase ≠ .idle := by decide +kernel

theorem witness_NoEventIsTakenInIdle : block.fr.phase = .idle := by decide +kernel

theorem witness_FrameBehindNoiseIsReturnedWhole :
    (∀ b ∈ [0xFF#8, 0x00#8], b ≠ STX) ∧ (ENQ = ENQ ∨ ENQ = ACK)
      ∧ (List.replicate 255 0x00#8).length ≤ 255 := by decide +kernel

theorem witness_CandidatesFailOnlyByTerminatorOrCrc :
    (readCall ((req1.take 8 ++ [0x00#8]).map .byte) readerStart).1 = .candidate (req1.take 8 ++ [0x00#8])
      ∧ validate crcDefault (req1.take 8 ++ [0x00#8]) = .invalid .badTerminator := by decide +kernel

theorem witness_HeaderHoldsItsNineFields :
    (4 ≤ [0x02#8, 0x05#8, 0x01#8, 0x00#8, 0x11#8, 0x91#8, 0x03#8].length
        ∧ ([0x02#8, 0x05#8, 0x01#8, 0x00#8, 0x11#8, 0x91#8, 0x03#8].getD 3 0#8).toNat + 7
          ≤ [0x02#8, 0x05#8, 0x01#8, 0x00#8, 0x11#8, 0x91#8, 0x03#8].length)
      ∧ ¬(4 ≤ (req1.take 8).length
          ∧ ((req1.take 8).getD 3 0#8).toNat + 7 ≤ (req1.take 8).length) := by decide

theorem witness_EncodedRequestsValidate : 255#8 ≠ 0#8 ∧ (List.replicate 255 0#8).length ≤ 255 := by
  decide +kernel

/-- V26a, flipped in the start byte, the kind, the address, the length byte upwards, the first PAYLOAD
byte, the second CRC byte, and the terminator. -/
theorem witness_SingleBitFlipsAreRejected :
    let f := [0x02#8, 0x05#8, 0x01#8, 0x04#8, 0x11#8, 0x91#8, 0x03#8, 0x00#8, 0xF1#8, 0x30#8, 0x03#8]
    crcDefault.poly.getLsbD 0 = true ∧ f.length = lengthByte f + 7
      ∧ validate crcDefault f = .validRequest (header f)
      ∧ 10 < f.length ∧ 7 < 8
      ∧ lengthByte f < lengthByte (flipBit f 3 0)
      ∧ (4 ≤ 4 ∧ 4 < lengthByte f + 6) ∧ (4 ≤ 9 ∧ 9 < lengthByte f + 6)
      ∧ 10 = lengthByte f + 6 := by decide +kernel

theorem zeroReply_valid (id : Byte) :
    validate crcDefault (zeroReply id) = .validReply (header (zeroReply id)) := by
  rw [zeroReply, validate_frameBytes _ _ _ _ _ _ (Or.inr rfl) (by decide +kernel)]
  rw [if_neg (by simp), if_neg (by simp), if_neg (by decide)]

/-- The three ways of a valid reply: a record, another command, another length. -/
theorem witness_DecodeTestsCommandThenLength_record :
    validate State.reset.cfg.crc (zeroReply 1#8) = .validReply (header (zeroReply 1#8)) :=
  zeroReply_valid 1#8

theorem witness_DecodeTestsCommandThenLength_others :
    validate State.reset.cfg.crc [0x02#8, 0x06#8, 0x01#8, 0x00#8, 0xE1#8, 0x91#8, 0x03#8]
        = .validReply ⟨0x06#8, 0x01#8, 0, 4, 4, 6, 0, none, none⟩
      ∧ validate State.reset.cfg.crc [0x02#8, 0x06#8, 0x01#8, 0x02#8, 0x60#8, 0x01#8, 0xC1#8, 0xFC#8, 0x03#8]
        = .validReply ⟨0x06#8, 0x01#8, 2, 4, 6, 6, 0, some 0x60#8, some 0x01#8⟩
      ∧ validate State.reset.cfg.crc req1 ≠ .validReply (header req1) := by decide +kernel

theorem witness_DecodedRecordsAreComplete :
    validate crcDefault (zeroReply 1#8) = .validReply (header (zeroReply 1#8))
      ∧ decodeReply State.reset.cfg (zeroReply 1#8) (header (zeroReply 1#8))
        = .record (unpackRecord State.reset.cfg (zeroReply 1#8)) := by
  refine ⟨zeroReply_valid 1#8, ?_⟩
  rw [zeroReply, header_frameBytes _ _ _ _ _ (by decide +kernel), decodeReply_of_command _ _ _ (by decide +kernel)]
  exact if_neg (by decide +kernel)

theorem witness_EncodeBuildsTheRequestOrRefuses :
    (1#8 ≠ 0#8 ∧ (List.replicate 255 0#8).length ≤ 255)
      ∧ 255 < (List.replicate 256 0#8).length ∧ (0#8 : Byte) = 0#8 := by decide +kernel

/-- One device due and one not, on a bus quiet for exactly the floor. -/
theorem witness_TickAsksEveryDueDevice :
    let s := (block.setDevs [sampled, Device.reset 0x02#8]).setLastTraffic 9
    s.fr.phase = .idle ∧ addressesNonzero s.devs = true
      ∧ dueDevices s.cfg s.clk s.devs 10 = [Device.reset 0x02#8]
      ∧ (blockFr readerStart).fr.phase ≠ .idle
      ∧ addressesNonzero (block.setDevs [Device.reset 0x00#8]).devs = false := by decide +kernel

theorem witness_NothingIsSentInAReceivingIteration :
    let s := blockRx [.byte 0x41#8]
    1 ≤ s.cfg.ticksPerSecond ∧ s.loop.halted = false ∧ (nextOf (exec .run s)).isSome = true
      ∧ (readCall s.env.rx readerStart).1 ≠ .noDataTimeout
      ∧ (nextOf (step ((blockFr readerStart).setInbox [.op [0x21#8, 0x02#8]]))).isSome = true := by
  decide +kernel

/-- A first record, a gated one, one at exactly the interval, and one for a full buffer. -/
theorem witness_AcceptCreatesGatesAndStores :
    recordComplete (recordWith serialA 12345) = true
      ∧ block.devs[0]? = some (Device.reset 0x01#8)
      ∧ blockSampled.devs[0]? = some sampled
      ∧ sampleDue block.cfg sampled 64 = false ∧ sampleDue block.cfg sampled 65 = true
      ∧ bufferHasRoom { block.cfg with bufCap := some 1 } sampled.buf = false := by decide +kernel

/-- V57, and an answer left for the next flush. -/
theorem witness_FlushDrainsAndReports :
    (nextOf (exec (.saFlush 600) (blockSampled.setAnswers [.ok, .fail, .ok]))).map
        (fun u => (u.devs, u.env.answers))
      = some ([{ sampled with buf := [] }], [.ok]) := by decide +kernel

theorem witness_FailedFlushKeepsBuffersAndTotals :
    let s := blockSampled.setAnswers [.fail, .fail]
    let absent := s.setCfg { s.cfg with reporterPresent := false }
    (∀ a ∈ s.env.answers, a = .fail) ∧ 2 * s.devs.length ≤ s.env.answers.length
      ∧ (∀ a ∈ absent.env.answers, a = .fail) ∧ 2 * absent.devs.length ≤ absent.env.answers.length
      ∧ (nextOf (exec (.saFlush 600) absent)).map (fun u => u.devs)
        = some [{ sampled with lastReported := some 12345000 }] := by decide +kernel

theorem witness_FinalFlushReportsNothing :
    (nextOf (exec (.saFinalFlush 100) blockSampled)).map (fun u => u.devs)
        = some [{ sampled with buf := [] }]
      ∧ traceOf (.saFinalFlush 100) (blockSampled.setAnswers [.fail])
        = some [.persist 0 (some serialA) [⟨5, []⟩], .status (.persistFailed 0)] := by decide +kernel

theorem witness_ValidRequestsAreReportedAndIgnored :
    block.CanReceive ∧ ([] : List Byte).length ≤ 255 ∧ [0x60#8, 0x01#8].length ≤ 255 := by decide +kernel

theorem witness_TelemetryRepliesAreDecodedAndDelivered :
    block.CanReceive ∧ dataFA.length = 119 ∧ devIndex block.devs 1#8 = some 0
      ∧ devIndex block.devs 9#8 = none := by decide +kernel

theorem witness_OtherRepliesAreDiscardedByName :
    block.CanReceive
      ∧ (([0x60#8] : List Byte).length ≤ 255 ∧ [0x60#8].take 2 ≠ [0x60#8, 0x01#8])
      ∧ (([] : List Byte).length ≤ 255 ∧ ([] : List Byte).take 2 ≠ [0x60#8, 0x01#8])
      ∧ ([0x60#8, 0x01#8].take 2 = [0x60#8, 0x01#8] ∧ [0x60#8, 0x01#8].length ≠ 121)
      ∧ (([0x60#8, 0x01#8] ++ List.replicate 253 0#8).length ≤ 255
          ∧ ([0x60#8, 0x01#8] ++ List.replicate 253 0#8).length ≠ 121) := by decide +kernel

theorem witness_DamagedFramesAreDiscarded :
    let i := Instr.frameReq 1#8 [] 0x9111#16 0#8
    let j := Instr.frameReplyOther 1#8 [] 0x0000#16 ETX
    block.CanReceive ∧ i.wf = true ∧ i.space = .frame
      ∧ validate block.cfg.crc (encode i) = .invalid .badTerminator
      ∧ j.wf = true ∧ j.space = .frame
      ∧ validate block.cfg.crc (encode j) = .invalid (.crcMismatch 0x91E1#16 0x0000#16) := by
  decide +kernel

/-- One state for each result of the reader call. -/
theorem witness_RunTakesItsStepsInOrder :
    block.fr.phase = .idle ∧ block.CanRun ∧ (readCall block.env.rx readerStart).1 = .noDataTimeout
      ∧ (blockRx [.transportFault]).CanRun
      ∧ (readCall [.transportFault] readerStart).1 = .fault
      ∧ (blockRx [.byte 0x41#8]).CanRun ∧ (readCall [.byte 0x41#8] readerStart).1 = .noDataFraming
      ∧ (blockRx (req1.map .byte)).CanRun
      ∧ (readCall (req1.map .byte) readerStart).1 = .candidate req1 := by decide +kernel

theorem witness_RunCompletesItsIteration : (blockRx [.transportFault]).CanRun ∧ block.CanRun := by
  decide +kernel

theorem witness_HaltedBlockDoesNothing :
    (block.setLoop ⟨true, false, 10⟩).loop.halted = true
      ∧ (Instr.frameReq 1#8 [] 0#16 ETX).space = .frame := by decide +kernel

theorem witness_ShutdownFlushesAndHalts :
    blockSampled.loop.halted = false ∧ blockSampled.fr.phase = .idle := by decide +kernel

theorem witness_EveryStepKeepsTheInvariant :
    (blockSampled.setInbox [.op [0x01#8]]).Inv
      ∧ (nextOf (step (blockSampled.setInbox [.op [0x01#8]]))).isSome = true := by decide +kernel

theorem ordered_sampled (items : List HostItem) :
    ((blockSampled.setLastTraffic 5).setInbox items).Ordered := by
  refine ⟨?_, ?_, ?_⟩
  · show ∀ d ∈ [sampled], (d.buf.map (·.t)).Pairwise (· ≤ ·) ∧ ∀ x ∈ d.buf, x.t ≤ 10
    decide +kernel
  · show ∀ u ∈ some 5, u ≤ 10
    decide
  · intro d hd v hv
    obtain rfl : d = sampled := List.mem_singleton.1 hd
    obtain rfl : 5 = v := Option.some.inj hv
    exact ⟨5, rfl, Nat.le_refl 5⟩

/-- RUN and SHUTDOWN as operations, and a step of a run at a later time. -/
theorem witness_IterationsKeepTimeStampsOrdered :
    (performer .run = .host ∧ performer .shutdown = .host
        ∧ (nextOf (exec .run ((blockSampled.setLastTraffic 5).setInbox []))).isSome = true)
      ∧ ((blockSampled.setLastTraffic 5).setInbox [.time 10]).Ordered
      ∧ ((blockSampled.setLastTraffic 5).setInbox [.time 10]).HostMove
      ∧ (nextOf (step ((blockSampled.setLastTraffic 5).setInbox [.time 10]))).map (fun t => t.env.now)
        = some 10 :=
  ⟨by decide +kernel, ordered_sampled _,
    Or.inr (fun _ _ _ h => by simp [State.setInbox] at h), by decide +kernel⟩

theorem witness_OnlyShutdownAndFatalStopTheBlock :
    block.loop.halted = false
      ∧ (nextOf (step (block.setInbox [.op [0x02#8]]))).map (fun t => t.loop.halted) = some true
      ∧ (nextOf (step ((blockRx [.transportFault]).setInbox [.op [0x01#8]]))).map
          (fun t => t.loop.halted) = some true := by decide +kernel

theorem witness_ConfigurationIsFrozenDuringARun :
    block.freeze.running = true
      ∧ (nextOf (step (block.freeze.setInbox [.op [0x01#8]]))).isSome = true
      ∧ (block.freeze.setInbox [.cfg (.nDev 0)]).env.inbox = .cfg (.nDev 0) :: []
      ∧ block.running = false
      ∧ (block.setInbox [.cfg (.devId 1 0x02#8)]).env.inbox = .cfg (.devId 1 0x02#8) :: []
      ∧ block.devs[0]? = some (Device.reset 0x01#8) ∧ block.devs.length ≤ 1
      ∧ refusalOf (step (block.setInbox [.cfg (.scale (.u16 .ac1V) 0 [])])) = some .fixedParameter
      ∧ (nextOf (step (block.setInbox [.cfg (.scale (.u16 .ac2V) 0 [])]))).isSome = true := by
  decide +kernel

theorem witness_OnlyAcceptMovesSampleTimes :
    (nextOf (exec (.saFlush 600) blockSampled)).isSome = true := by decide +kernel

theorem witness_TraceGrowsAndTransmissionIsNoTraffic :
    (nextOf (step (block.setInbox [.op [0x50#8, 0x0A#8]]))).isSome = true
      ∧ (nextOf (exec (.psTick 10) block)).isSome = true := by decide +kernel

end Sys2Proof.Tests
end

section
/-! What becomes of the output trace and of the traffic stamp (00_scope.md R15; 44_poll_scheduler.md
R244, R249): the register operations and the accumulator, the codec, the scheduler and the stop
leave the stamp alone and only append to the trace; the loop's own steps append too. -/

namespace Sys2Proof.Machine

/-! ### The next states of an outcome -/

/-- Whether every next state an outcome answers has the property; a fault or a refusal has none. -/
def EveryNext (P : State → Prop) (o : Host.Outcome State Fault Refusal) : Prop :=
  ∀ t, o = .next t → P t

@[simp] theorem everyNext_next (P : State → Prop) (t : State) : EveryNext P (.next t) ↔ P t := by
  simp [EveryNext]

@[simp] theorem everyNext_refused (P : State → Prop) (r : Refusal) : EveryNext P (.refused r) := by
  simp [EveryNext]

@[simp] theorem everyNext_ite (P : State → Prop) (c : Prop) [Decidable c]
    (a b : Host.Outcome State Fault Refusal) :
    EveryNext P (if c then a else b) ↔ (c → EveryNext P a) ∧ (¬ c → EveryNext P b) := by
  split <;> simp [*]

theorem everyNext_inLoop (P : State → Prop) (s : State) (ok : Bool) (k : State → State)
    (halted : P s) (runs : P (k s)) : EveryNext P (s.inLoop ok k) := by
  intro t h
  obtain ⟨-, rfl⟩ | ⟨-, -, -, rfl⟩ := inLoop_next s t ok k h
  · exact halted
  · exact runs

/-! ### Growing traces and an untouched stamp -/

/-- Nothing is taken back from the trace on the way from one state to the other (R15). -/
def State.TraceGrows (s t : State) : Prop := s.env.trace <+: t.env.trace

/-- The trace grows and the traffic stamp stays: what is done without received traffic (R244,
R249). -/
structure State.NoTraffic (s t : State) : Prop where
  trace : s.TraceGrows t
  stamp : t.clk.lastTraffic = s.clk.lastTraffic

namespace State
variable {s t u : State}

theorem TraceGrows.trans (h : s.TraceGrows t) (h' : t.TraceGrows u) : s.TraceGrows u :=
  List.IsPrefix.trans h h'

/-- An update that only appends events lets the trace grow. -/
theorem traceGrows_of_append (es : List OutEvent) (h : t.env.trace = s.env.trace ++ es) :
    s.TraceGrows t := ⟨es, h.symm⟩

/-- An update that writes neither the trace nor the clock. -/
theorem noTraffic_of_eq (htrace : t.env.trace = s.env.trace) (hclk : t.clk = s.clk) :
    s.NoTraffic t := ⟨traceGrows_of_append [] (by simp [htrace]), by rw [hclk]⟩

@[simp] theorem NoTraffic.refl (s : State) : s.NoTraffic s := noTraffic_of_eq rfl rfl

theorem NoTraffic.trans (h : s.NoTraffic t) (h' : t.NoTraffic u) : s.NoTraffic u :=
  ⟨h.trace.trans h'.trace, h'.stamp.trans h.stamp⟩

@[simp] theorem traceGrows_ret (r : Result) : s.TraceGrows (t.ret r) ↔ s.TraceGrows t := Iff.rfl

@[simp] theorem noTraffic_ret (r : Result) : s.NoTraffic (t.ret r) ↔ s.NoTraffic t :=
  ⟨fun ⟨h, h'⟩ => ⟨h, h'⟩, fun ⟨h, h'⟩ => ⟨h, h'⟩⟩

variable (s)

@[simp] theorem noTraffic_emit (es : List OutEvent) : s.NoTraffic (s.emit es) :=
  ⟨traceGrows_of_append es rfl, rfl⟩

@[simp] theorem noTraffic_fail (st : Status) : s.NoTraffic (s.fail st) := s.noTraffic_emit _

@[simp] theorem noTraffic_setAcc (v : Word16) : s.NoTraffic (s.setAcc v) := noTraffic_of_eq rfl rfl

@[simp] theorem noTraffic_setFr (r : Reader) : s.NoTraffic (s.setFr r) := noTraffic_of_eq rfl rfl

@[simp] theorem noTraffic_setRx (es : List InEvent) : s.NoTraffic (s.setRx es) :=
  noTraffic_of_eq rfl rfl

@[simp] theorem noTraffic_setRecord (rec : TelemetryRecord) : s.NoTraffic (s.setRecord rec) :=
  noTraffic_of_eq rfl rfl

/-- The stamp is no output. -/
@[simp] theorem traceGrows_setLastTraffic (t : Time) : s.TraceGrows (s.setLastTraffic t) :=
  traceGrows_of_append [] (by simp)

@[simp] theorem noTraffic_sampleNow : s.NoTraffic s.sampleNow := noTraffic_of_eq rfl rfl

/-! ### The units -/

@[simp] theorem noTraffic_accept (i : Nat) (rec : TelemetryRecord) (t : Time) :
    s.NoTraffic (s.accept i rec t) := by
  obtain ⟨ds, es, h, -⟩ := accept_spec s i rec t
  rw [h]
  exact ⟨traceGrows_of_append es rfl, rfl⟩

/-- A flush writes `clk.lastFlush`, which is not the traffic stamp. -/
@[simp] theorem noTraffic_flush (report : Bool) (t : Time) : s.NoTraffic (s.flush report t) := by
  obtain ⟨ds, left, es, h, -⟩ := flush_spec s report t
  rw [h]
  exact ⟨traceGrows_of_append es rfl, rfl⟩

/-- A transmission is no traffic (R249). -/
@[simp] theorem noTraffic_tick (t : Time) : s.NoTraffic (s.tick t) := by
  obtain ⟨acc, tb, h, -⟩ := tick_spec s t
  rw [h]
  exact ⟨traceGrows_of_append _ rfl, rfl⟩

theorem noTraffic_stop (l : LoopRegs) (st : Status) :
    s.NoTraffic ((s.setLoop l).emit [.status st]) :=
  ⟨traceGrows_of_append _ rfl, rfl⟩

@[simp] theorem noTraffic_fatalStop : s.NoTraffic s.fatalStop :=
  (s.noTraffic_flush false s.loop.t).trans (noTraffic_stop _ _ _)

/-! ### The loop -/

theorem noTraffic_deliver (id : Byte) : s.NoTraffic (s.deliver id) := by
  unfold deliver
  split
  · exact (s.noTraffic_fail _).trans (noTraffic_setRecord _ _)
  · exact ((s.noTraffic_emit _).trans (noTraffic_accept _ _ _ _)).trans (noTraffic_setRecord _ _)

theorem noTraffic_dispatchReply (c : List Byte) (hdr : Header) :
    s.NoTraffic (s.dispatchReply c hdr) := by
  unfold dispatchReply
  split
  · exact (s.noTraffic_setRecord _).trans (noTraffic_deliver _ _)
  · exact s.noTraffic_fail _
  · exact s.noTraffic_fail _

theorem noTraffic_dispatch (c : List Byte) : s.NoTraffic (s.dispatch c) := by
  refine (s.noTraffic_setAcc (validateAcc s.cfg.crc c s.crcAcc)).trans ?_
  dsimp only [dispatch]
  split
  · exact noTraffic_fail _ _
  · exact noTraffic_emit _ _
  · exact noTraffic_dispatchReply _ _ _

theorem traceGrows_stampTraffic : s.TraceGrows s.stampTraffic :=
  (noTraffic_sampleNow s).trace.trans (traceGrows_setLastTraffic _ _)

theorem traceGrows_receive (c : List Byte) : s.TraceGrows (s.receive c) :=
  s.traceGrows_stampTraffic.trans (noTraffic_dispatch _ c).trace

/-- A frame in hand lets the trace grow when what takes its header does. -/
theorem traceGrows_onValid (c : List Byte) (k : State → Header → State)
    (hk : ∀ (s : State) (hdr : Header), s.NoTraffic (k s hdr)) : s.TraceGrows (s.onValid c k) := by
  refine (s.traceGrows_stampTraffic.trans (noTraffic_setAcc _
    (validateAcc s.stampTraffic.cfg.crc c s.stampTraffic.crcAcc)).trace).trans ?_
  dsimp only [onValid]
  split
  · exact (noTraffic_fail _ _).trace
  · exact (hk _ _).trace
  · exact (hk _ _).trace

theorem noTraffic_finishIteration : s.NoTraffic s.finishIteration := by
  refine (s.noTraffic_tick s.loop.t).trans ?_
  dsimp only [finishIteration]
  split
  · exact noTraffic_flush _ _ _
  · exact NoTraffic.refl _

theorem traceGrows_afterCall (r : ReadResult) : s.TraceGrows (s.afterCall r) := by
  cases r with
  | fault => exact (s.noTraffic_sampleNow.trans (noTraffic_fatalStop _)).trace
  | candidate c => exact (s.traceGrows_receive c).trans (noTraffic_finishIteration _).trace
  | noDataFraming =>
    exact s.traceGrows_stampTraffic.trans
      ((noTraffic_fail _ _).trans (noTraffic_finishIteration _)).trace
  | noDataTimeout =>
    exact ((s.noTraffic_sampleNow.trans (noTraffic_fail _ _)).trans
      (noTraffic_finishIteration _)).trace

theorem traceGrows_iterate : s.TraceGrows s.iterate :=
  ((s.noTraffic_setFr _).trans (noTraffic_setRx _ _)).trace.trans (traceGrows_afterCall _ _)

end State

/-! ### The instructions -/

section
variable (s : State)

theorem execReset_traceGrows : EveryNext s.TraceGrows (execReset s) := by
  simp [execReset, State.TraceGrows, State.resetWith]

theorem execRun_traceGrows : EveryNext s.TraceGrows (execRun s) :=
  everyNext_inLoop _ s _ _ (State.NoTraffic.refl s).trace (State.traceGrows_iterate s.freeze)

theorem execShutdown_noTraffic : EveryNext s.NoTraffic (execShutdown s) := by
  simp only [execShutdown, everyNext_ite, everyNext_refused, everyNext_next, State.noTraffic_ret]
  refine ⟨fun _ => .refl s, fun _ => ⟨fun _ => trivial, fun _ => ?_⟩⟩
  exact (s.noTraffic_sampleNow.trans (State.noTraffic_flush _ _ _)).trans
    (State.noTraffic_stop _ _ _)

/-- A row of FR.BYTE writes the reader's registers alone. -/
theorem frByteOp_noTraffic (row : FrRow) (f : Reader → Reader × Option ReadResult) :
    EveryNext s.NoTraffic (frByteOp row f s) := by
  simp [frByteOp]

theorem execTcDecode_noTraffic (c : List Byte) (hdr : Header) :
    EveryNext s.NoTraffic (execTcDecode c hdr s) := by
  unfold execTcDecode
  cases decodeReply s.cfg c hdr <;> simp

theorem execTcEncode_noTraffic (id : Byte) (cmd : List Byte) :
    EveryNext s.NoTraffic (execTcEncode id cmd s) := by
  have htb (v : Word16) (bs : List Byte) : s.NoTraffic ((s.setAcc v).setTb bs) :=
    State.noTraffic_of_eq rfl rfl
  simp [execTcEncode, htb]

/-- A frame, whatever its row does with the header, lets the trace grow. -/
theorem frame_traceGrows (c : List Byte) (k : State → Header → State) (ok : Bool)
    (hk : ∀ (s : State) (hdr : Header), s.NoTraffic (k s hdr)) :
    EveryNext s.TraceGrows (s.inLoop ok (fun s => (s.onValid c k).ret .nothing)) :=
  everyNext_inLoop _ s _ _ (State.NoTraffic.refl s).trace (s.traceGrows_onValid c k hk)

/-- PS.NOTE_TRAFFIC writes the stamp and puts nothing out (R244). -/
theorem execPsNoteTraffic_traceGrows (t : Time) :
    EveryNext s.TraceGrows (execPsNoteTraffic t s) := by
  simp [execPsNoteTraffic]

end

theorem exec_frame_traceGrows (i : Instr) (s : State) (hi : i.space = .frame) :
    EveryNext s.TraceGrows (exec i s) := by
  cases i with
  | frameReqTelemetry id crc term => exact frame_traceGrows _ _ _ _ fun s _ => s.noTraffic_emit _
  | frameReq id payload crc term => exact frame_traceGrows _ _ _ _ fun s _ => s.noTraffic_emit _
  | frameReplyTelemetry id data crc term =>
    exact frame_traceGrows _ _ _ _ fun s hdr => s.noTraffic_dispatchReply _ hdr
  | frameReplyBadlen id data crc term =>
    exact frame_traceGrows _ _ _ _ fun s _ => s.noTraffic_fail _
  | frameReplyOther id payload crc term =>
    exact frame_traceGrows _ _ _ _ fun s _ => s.noTraffic_fail _
  | _ => cases hi

/-- The instructions that may write the traffic stamp: RESET, RUN, PS.NOTE_TRAFFIC and a frame (R40,
R244, R283, R340). -/
def MovesStamp (i : Instr) : Prop :=
  i = .reset ∨ i = .run ∨ (∃ u, i = .psNoteTraffic u) ∨ i.space = .frame

/-- Every other instruction is done without received traffic, PS.TICK included (R249). -/
theorem exec_noTraffic (i : Instr) (s : State) (hi : ¬ MovesStamp i) :
    EveryNext s.NoTraffic (exec i s) := by
  cases i with
  | frameReqTelemetry | frameReq | frameReplyTelemetry | frameReplyBadlen | frameReplyOther =>
    exact absurd (Or.inr (Or.inr (Or.inr rfl))) hi
  | reset => exact absurd (Or.inl rfl) hi
  | run => exact absurd (Or.inr (Or.inl rfl)) hi
  | psNoteTraffic t => exact absurd (Or.inr (Or.inr (Or.inl ⟨t, rfl⟩))) hi
  | shutdown => exact execShutdown_noTraffic s
  | fatal => simp [exec, execFatal]
  | crcReset => simp [exec, execCrcReset]
  | crcByte b => simp [exec, execCrcByte]
  | crcBlock bytes => simp [exec, execCrcBlock]
  | crcValue => simp [exec, execCrcValue]
  | crcCheck c len => simp [exec, execCrcCheck]
  | frStart => simp [exec, execFrStart]
  | frByteHunt b => exact frByteOp_noTraffic s .hunt (byteHunt b)
  | frByteKind b => exact frByteOp_noTraffic s .kind (byteKind b)
  | frByteHdr b => exact frByteOp_noTraffic s .hdr (byteHdr b)
  | frByteBody b => exact frByteOp_noTraffic s .body (byteBody b)
  | frByteLast b => exact frByteOp_noTraffic s .last (byteLast b)
  | frTimeout => simp [exec, execFrTimeout]
  | frFault => simp [exec, execFrFault]
  | fvValidate c => simp [exec, execFvValidate]
  | fvHeader c => simp [exec, execFvHeader]
  | tcDecode c hdr => exact execTcDecode_noTraffic s c hdr
  | tcUnpackAscii bytes => simp [exec, execTcUnpackAscii]
  | tcUnpackU8 b => simp [exec, execTcUnpackU8]
  | tcUnpackU16 name b0 b1 => simp [exec, execTcUnpackU16]
  | tcUnpackU32 name b0 b1 b2 b3 => simp [exec, execTcUnpackU32]
  | tcUnpackRaw32 b0 b1 b2 b3 => simp [exec, execTcUnpackRaw32]
  | tcUnpackPad bytes => simp [exec, execTcUnpackPad]
  | tcScale raw exp unit => simp [exec, execTcScale]
  | tcEncode id cmd => exact execTcEncode_noTraffic s id cmd
  | psTick t => simp [exec, execPsTick]
  | saAccept dev record t => simp [exec, execSaAccept]
  | saFlush t => simp [exec, execSaFlush]
  | saFinalFlush t => simp [exec, execSaFinalFlush]

theorem exec_traceGrows (i : Instr) (s : State) : EveryNext s.TraceGrows (exec i s) := by
  by_cases hi : MovesStamp i
  · obtain rfl | rfl | ⟨u, rfl⟩ | hframe := hi
    · exact execReset_traceGrows s
    · exact execRun_traceGrows s
    · exact execPsNoteTraffic_traceGrows s u
    · exact exec_frame_traceGrows i s hframe
  · exact fun t h => (exec_noTraffic i s hi t h).trace

/-! ### A step -/

/-- A configuration write reaches neither the environment nor the clock (R31). -/
theorem hostWrite_noTraffic (s : State) (w : CfgWrite) : EveryNext s.NoTraffic (s.hostWrite w) := by
  have hdevs (ds : List Device) : s.NoTraffic (s.setDevs ds) := State.noTraffic_of_eq rfl rfl
  have hcfg (cfg : Config) : s.NoTraffic (s.setCfg cfg) := State.noTraffic_of_eq rfl rfl
  unfold State.hostWrite
  cases w with
  | nDev n => simp [hdevs]
  | devId i id => cases hd : s.devs[i]? <;> simp [hd, hdevs]
  | scale name exp unit => cases hf : fixedScale name <;> simp [hf, hcfg]
  | _ => simp [hcfg]

theorem stepItem_traceGrows (s : State) (item : HostItem) :
    EveryNext s.TraceGrows (stepItem s item) := by
  cases item with
  | op bs =>
    intro t h
    obtain ⟨i, -, -, hexec⟩ := stepItem_op_next s t bs h
    exact exec_traceGrows i s t hexec
  | frame bs =>
    intro t h
    obtain ⟨i, -, -, hexec⟩ := stepItem_frame_next s t bs h
    exact exec_traceGrows i s t hexec
  | cfg w => exact fun t h => (hostWrite_noTraffic s w t h).trace
  | time n => simp [stepItem, State.TraceGrows]
  | rx events => simp [stepItem, State.TraceGrows]
  | answer answers => simp [stepItem, State.TraceGrows]

/-- Taking an item from the inbox leaves the trace, and what the item does only appends to it. -/
theorem step_traceGrows (s : State) : EveryNext s.TraceGrows (step s) := by
  intro t h
  obtain ⟨-, rfl⟩ | ⟨item, items, -, hitem⟩ := step_next s t h
  · exact (State.NoTraffic.refl t).trace
  · exact stepItem_traceGrows (s.setInbox items) item t hitem

/-- Settles O59: a step is its item, an item at most one instruction, and an instruction other than
those that note received traffic or RESET leaves the stamp alone. -/
theorem traceGrowsAndTransmissionIsNoTraffic :
    Obligations.TraceGrowsAndTransmissionIsNoTraffic := by
  refine ⟨step_traceGrows, fun i s t h => ?_⟩
  by_cases hi : MovesStamp i
  · obtain hreset | hrun | hnote | hframe := hi
    · exact Or.inl hreset
    · exact Or.inr (Or.inl hrun)
    · exact Or.inr (Or.inr (Or.inl hnote))
    · exact Or.inr (Or.inr (Or.inr (Or.inl hframe)))
  · exact Or.inr (Or.inr (Or.inr (Or.inr (exec_noTraffic i s hi t h).stamp)))

end Sys2Proof.Machine
end

section
/-! What an instruction can do to the state, said once for every state property that follows: an
instruction is a sequence of the block's elementary moves, or RESET, RUN, an operation of the frame
reader, or one of the two operations given with a time of their own. -/

namespace Sys2Proof.Machine

/-! ### Elementary moves -/

/-- One of the updates the instructions are made of. `scratch` writes what no other register depends
on: `crc.acc`, the value returned, `loop.t`, the events left and the trace. The guards of `stamp` and
`accept` hold in an iteration, where both come with the time just sampled (46_control_loop.md R282,
R283, R285). -/
inductive State.Move (s : State) : State → Prop where
  | scratch (acc : Word16) (res : Result) (t : Time) (rx : List InEvent) (trace : List OutEvent) :
    s.Move { s with crcAcc := acc, result := res, loop := { s.loop with t := t },
                    env := { s.env with rx := rx, trace := trace } }
  | encode (tb : List Byte) (size : bufferWf tb = true) : s.Move (s.setTb tb)
  | record (rec : TelemetryRecord) (form : rec = [] ∨ recordComplete rec = true) :
    s.Move (s.setRecord rec)
  | tick (t : Time) : s.Move (s.tick t)
  | flush (report : Bool) (t : Time) : s.Move (s.flush report t)
  | stop (l : LoopRegs) (halted : l.halted = true) : s.Move (s.setLoop l)
  | stamp : s.Move (s.setLastTraffic s.env.now)
  | accept (i : Nat) (rec : TelemetryRecord) (form : recordComplete rec = true)
      (stamped : s.clk.lastTraffic = some s.env.now) : s.Move (s.accept i rec s.env.now)

/-- A sequence of elementary moves. -/
abbrev State.Moves : State → State → Prop := Relation.ReflTransGen State.Move

/-- The state between the traffic note of an iteration and its end: the time sampled is the time
input, and it is the traffic stamp (R282, R283). -/
structure State.Stamped (s : State) : Prop where
  sampled : s.loop.t = s.env.now
  noted : s.clk.lastTraffic = some s.env.now

namespace State
variable (s : State)

theorem stamped_stampTraffic : s.stampTraffic.Stamped := ⟨rfl, rfl⟩

theorem moves_emit (es : List OutEvent) : s.Moves (s.emit es) := .single (.scratch _ _ _ _ _)

theorem moves_fail (st : Status) : s.Moves (s.fail st) := s.moves_emit _

theorem moves_ret (r : Result) : s.Moves (s.ret r) := .single (.scratch _ _ _ _ _)

theorem moves_setAcc (v : Word16) : s.Moves (s.setAcc v) := .single (.scratch _ _ _ _ _)

theorem moves_setRx (es : List InEvent) : s.Moves (s.setRx es) := .single (.scratch _ _ _ _ _)

theorem moves_sampleNow : s.Moves s.sampleNow := .single (.scratch _ _ _ _ _)

theorem moves_stampTraffic : s.Moves s.stampTraffic := s.moves_sampleNow.tail .stamp

theorem moves_stop (l : LoopRegs) (st : Status) (halted : l.halted = true) :
    s.Moves ((s.setLoop l).emit [.status st]) :=
  Relation.ReflTransGen.head (.stop l halted) (moves_emit _ _)

theorem moves_fatalStop : s.Moves s.fatalStop :=
  Relation.ReflTransGen.head (.flush false s.loop.t) (moves_stop _ _ _ rfl)

end State

/-! ### Complete records from the wire -/

/-- A row whose field is one of the two ASCII strings has that string's width (30_encoding.md
R109). -/
def Row.asciiWidthOk (r : Row) : Bool :=
  decide (r.field = some (.ascii .partNumber) → r.width = 11)
    && decide (r.field = some (.ascii .serialNumber) → r.width = 18)

theorem descriptorTable_asciiWidthOk : ∀ r ∈ descriptorTable, r.asciiWidthOk = true := by decide

theorem descriptorTable_width : (descriptorTable.map (·.width)).sum = TELEMETRY_DATA_LEN := by decide

/-- The entry of a row has the form of its name when the row's bytes are all there (R206 to R211). -/
theorem valueFits_unpackRow (cfg : Config) (r : Row) (bs : List Byte) (hr : r.asciiWidthOk = true)
    (hl : bs.length = r.width) :
    ∀ e ∈ unpackRow cfg r bs, valueFits e.1 e.2 = true := by
  obtain ⟨field, width⟩ := r
  simp only [Row.asciiWidthOk, Bool.and_eq_true, decide_eq_true_eq] at hr hl
  obtain ⟨hpart, hserial⟩ := hr
  rcases field with _ | (f | f | f | f | f)
  · simp [unpackRow]
  · cases f with
    | partNumber => simp [unpackRow, unpackAscii, valueFits, hl, hpart]
    | serialNumber => simp [unpackRow, unpackAscii, valueFits, hl, hserial]
  all_goals simp [unpackRow, unpackU8, unpackU16, unpackU32, measuredValue, unpackRaw32, valueFits]

theorem memRead_length (buf : List Byte) (off n : Nat) (h : off + n ≤ buf.length) :
    (memRead buf off n).length = n := by
  rw [memRead, slice_length]
  omega

/-- The entries of a walk have the forms of their names when its bytes are all there (R204). -/
theorem valueFits_walk (cfg : Config) (c : List Byte) (o : Nat) (rows : List Row)
    (hrows : ∀ r ∈ rows, r.asciiWidthOk = true) (hl : o + (rows.map (·.width)).sum ≤ c.length) :
    ∀ e ∈ walk cfg c o rows, valueFits e.1 e.2 = true := by
  induction rows generalizing o with
  | nil => simp [walk]
  | cons r rs ih =>
    obtain ⟨hr, hrs⟩ := List.forall_mem_cons.1 hrows
    rw [List.map_cons, List.sum_cons] at hl
    have hrow := valueFits_unpackRow cfg r _ hr (memRead_length c o r.width (by omega))
    have hrest := ih (o + r.width) hrs (by omega)
    unfold walk
    cases hu : unpackRow cfg r (memRead c o r.width) with
    | none => exact hrest
    | some e => exact List.forall_mem_cons.2 ⟨hrow e (by rw [hu]; rfl), hrest⟩

/-- TC.DECODE of a sequence that passed check 3 returns complete records (R200, R212). -/
theorem recordComplete_of_decodeReply (cfg : Config) (c : List Byte) (rec : TelemetryRecord)
    (hc : check3 c = true) (h : decodeReply cfg c (header c) = .record rec) :
    recordComplete rec = true := by
  simp only [check3, Bool.and_eq_true, decide_eq_true_eq] at hc
  unfold decodeReply at h
  split at h
  · cases h
  split at h
  · cases h
  case _ hlen =>
    have hdata : lengthByte c - 2 = TELEMETRY_DATA_LEN := not_not.1 hlen
    rw [TELEMETRY_DATA_LEN] at hdata
    have hbytes : 6 + (descriptorTable.map (·.width)).sum ≤ c.length := by
      rw [descriptorTable_width, TELEMETRY_DATA_LEN]
      omega
    injection h with h
    subst h
    simp only [recordComplete, Bool.and_eq_true, decide_eq_true_eq, List.all_eq_true]
    exact ⟨unpackRecord_names cfg c,
      valueFits_walk cfg c 6 descriptorTable descriptorTable_asciiWidthOk hbytes⟩

/-! ### The loop -/

/-- The header of a valid verdict is the sequence's own, and check 3 was passed (R183, R186). -/
theorem header_of_valid (p : CrcParams) (c : List Byte) (hdr : Header)
    (h : validate p c = .validRequest hdr ∨ validate p c = .validReply hdr) :
    hdr = header c ∧ check3 c = true := by
  obtain ⟨h1, h2, h3, h4, h5⟩ := checks_of_valid p c ⟨hdr, h⟩
  refine ⟨?_, h3⟩
  simp only [validate, h1, h2, h3, h4, h5] at h
  by_cases hk : byteAt c 1 = ENQ <;> simpa [hk, eq_comm] using h

namespace State
variable (s : State)

theorem moves_deliver (id : Byte) (hs : s.Stamped) (hrec : recordComplete s.record = true) :
    s.Moves (s.deliver id) := by
  unfold deliver
  split
  · exact (s.moves_fail _).tail (.record [] (.inl rfl))
  · case _ i _ =>
    rw [hs.sampled]
    exact ((s.moves_emit _).tail (.accept i s.record hrec hs.noted)).tail (.record [] (.inl rfl))

theorem moves_dispatchReply (c : List Byte) (hs : s.Stamped) (hc : check3 c = true) :
    s.Moves (s.dispatchReply c (header c)) := by
  unfold dispatchReply
  split
  · case _ rec hrec =>
    have hform := recordComplete_of_decodeReply s.cfg c rec hc hrec
    exact Relation.ReflTransGen.head (.record rec (.inr hform))
      (moves_deliver _ _ ⟨hs.sampled, hs.noted⟩ hform)
  · exact s.moves_fail _
  · exact s.moves_fail _

/-- A frame in hand is a sequence of moves when what takes its header is. -/
theorem moves_onValid (c : List Byte) (k : State → Header → State)
    (hk : check3 c = true → ∀ u : State, u.Stamped → u.Moves (k u (header c))) :
    s.Moves (s.onValid c k) := by
  refine (s.moves_stampTraffic.trans (moves_setAcc _
    (validateAcc s.stampTraffic.cfg.crc c s.stampTraffic.crcAcc))).trans ?_
  dsimp only [onValid]
  split
  · exact moves_fail _ _
  · case _ hdr hv =>
    obtain ⟨rfl, hc⟩ := header_of_valid _ c hdr (.inl hv)
    exact hk hc _ ⟨rfl, rfl⟩
  · case _ hdr hv =>
    obtain ⟨rfl, hc⟩ := header_of_valid _ c hdr (.inr hv)
    exact hk hc _ ⟨rfl, rfl⟩

theorem moves_receive (c : List Byte) : s.Moves (s.receive c) := by
  rw [← onValid_eq_receive s c
    (fun u hdr => if byteAt c 1 = ENQ then u.emit [.status (.validRequest hdr.deviceId)]
      else u.dispatchReply c hdr) (fun hk _ _ => if_pos hk) (fun hk _ => if_neg hk)]
  refine s.moves_onValid c _ fun hc u hu => ?_
  split
  · exact u.moves_emit _
  · exact u.moves_dispatchReply c hu hc

theorem moves_finishIteration : s.Moves s.finishIteration := by
  refine Relation.ReflTransGen.head (.tick s.loop.t) ?_
  dsimp only [finishIteration]
  split
  · exact .single (.flush _ _)
  · exact .refl

theorem moves_afterCall (r : ReadResult) : s.Moves (s.afterCall r) := by
  cases r with
  | fault => exact s.moves_sampleNow.trans (moves_fatalStop _)
  | candidate c => exact (s.moves_receive c).trans (moves_finishIteration _)
  | noDataFraming =>
    exact (s.moves_stampTraffic.trans (moves_fail _ _)).trans (moves_finishIteration _)
  | noDataTimeout =>
    exact (s.moves_sampleNow.trans (moves_fail _ _)).trans (moves_finishIteration _)

end State

/-! ### The instructions -/

/-- What an executed instruction can do. -/
inductive Effect (s : State) (i : Instr) : State → Prop where
  | moves {t : State} (h : s.Moves t) : Effect s i t
  | reset (hi : i = .reset) : Effect s i (.resetWith s.cfg.crc s.env)
  | run {t : State} (r : Reader) (config : configOk s.cfg s.devs = true)
      (registers : readerOk r = true) (ended : r.phase = .idle)
      (h : (s.freeze.setFr r).Moves t) : Effect s i t
  | reader (hi : performer i = .fr) (r : Reader) (res : Result)
      (registers : readerOk s.fr = true → readerOk r = true) : Effect s i ((s.setFr r).ret res)
  | noteTraffic (hi : performer i = .ps) (u : Time) : Effect s i ((s.setLastTraffic u).ret .nothing)
  | accept (hi : performer i = .sa) (k : Nat) (rec : TelemetryRecord) (u : Time)
      (form : recordComplete rec = true) : Effect s i ((s.accept k rec u).ret .nothing)

section
variable (s : State) (i : Instr)

/-- An operation that leaves a value in `crc.acc` and returns one. -/
@[simp] theorem effect_setAcc_ret (v : Word16) (r : Result) : Effect s i ((s.setAcc v).ret r) :=
  .moves ((s.moves_setAcc v).trans (State.moves_ret _ r))

/-- An operation that only returns a value. -/
@[simp] theorem effect_ret (r : Result) : Effect s i (s.ret r) := .moves (s.moves_ret r)

theorem execRun_effect : EveryNext (Effect s i) (execRun s) := by
  intro t h
  obtain ⟨-, rfl⟩ | ⟨-, hcfg, -, rfl⟩ := inLoop_next s t _ _ h
  · exact .moves .refl
  · obtain ⟨hphase, hcb, hneed, -⟩ :=
      readCall_spec s.env.rx readerStart readerOk_readerStart (by decide)
    refine .run (readCall s.env.rx readerStart).2.2 hcfg ?_ hphase ?_
    · simp [readerOk, hphase, hcb, hneed]
    · exact ((State.moves_setRx _ _).trans (State.moves_afterCall _ _)).trans (State.moves_ret _ _)

theorem execShutdown_effect : EveryNext (Effect s i) (execShutdown s) := by
  simp only [execShutdown, everyNext_ite, everyNext_refused, everyNext_next]
  refine ⟨fun _ => .moves .refl, fun _ => ⟨fun _ => trivial, fun _ => .moves ?_⟩⟩
  exact ((s.moves_sampleNow.tail (.flush _ _)).trans (State.moves_stop _ _ _ rfl)).trans
    (State.moves_ret _ _)

theorem frame_effect (c : List Byte) (k : State → Header → State) (ok : Bool)
    (hk : check3 c = true → ∀ u : State, u.Stamped → u.Moves (k u (header c))) :
    EveryNext (Effect s i) (s.inLoop ok (fun s => (s.onValid c k).ret .nothing)) :=
  everyNext_inLoop _ s _ _ (.moves .refl)
    (.moves ((s.moves_onValid c k hk).trans (State.moves_ret _ _)))

/-- A row of FR.BYTE that the registers select does what FR.BYTE does (30_encoding.md R116). -/
theorem frByteOp_effect (hi : performer i = .fr) (row : FrRow) (b : Byte) :
    EveryNext (Effect s i) (frByteOp row (rowByte row b) s) := by
  simp only [frByteOp, everyNext_ite, everyNext_refused, everyNext_next]
  refine ⟨fun _ => trivial, fun hp => ⟨fun hrow => ?_, fun _ => trivial⟩⟩
  have hbyte : readerByte b s.fr = rowByte row b s.fr := by rw [readerByte, hrow]
  exact .reader hi _ _ fun hr => hbyte ▸ (readerByte_spec b s.fr hr hp).1

theorem execTcDecode_effect (c : List Byte) (hdr : Header) :
    EveryNext (Effect s i) (execTcDecode c hdr s) := by
  unfold execTcDecode
  rw [everyNext_ite]
  refine ⟨fun hv => ?_, fun _ => everyNext_refused _ _⟩
  obtain ⟨rfl, hc⟩ := header_of_valid _ c hdr (.inr hv)
  cases hd : decodeReply s.cfg c (header c) with
  | record rec =>
    have hform := recordComplete_of_decodeReply s.cfg c rec hc hd
    simpa using Effect.moves (i := i)
      (Relation.ReflTransGen.head (.record rec (.inr hform)) (State.moves_ret _ _))
  | unexpectedCommand cm sc => simp
  | lengthMismatch n => simp

theorem execTcEncode_effect (id : Byte) (cmd : List Byte) :
    EveryNext (Effect s i) (execTcEncode id cmd s) := by
  simp only [execTcEncode, everyNext_ite, everyNext_next]
  refine ⟨fun _ => .moves ((s.moves_fail _).trans (State.moves_ret _ _)), fun hr => .moves ?_⟩
  exact ((s.moves_setAcc _).tail (.encode _ (bufferWf_encodeFrame _ id cmd (by simpa using hr)))).trans
    (State.moves_ret _ _)

theorem execPsTick_effect (t : Time) : EveryNext (Effect s i) (execPsTick t s) := by
  simp only [execPsTick, everyNext_ite, everyNext_refused, everyNext_next]
  exact ⟨fun _ => trivial, fun _ => ⟨fun _ => .moves (.head (.tick t) (State.moves_ret _ _)),
    fun _ => trivial⟩⟩

theorem execSaAccept_effect (hi : performer i = .sa) (k : Nat) (rec : TelemetryRecord) (u : Time) :
    EveryNext (Effect s i) (execSaAccept k rec u s) := by
  simp only [execSaAccept, everyNext_ite, everyNext_refused, everyNext_next]
  exact ⟨fun _ => trivial, fun _ => ⟨fun form => .accept hi k rec u form, fun _ => trivial⟩⟩

theorem flush_effect (report : Bool) (t : Time) : Effect s i ((s.flush report t).ret .nothing) :=
  .moves (.head (.flush report t) (State.moves_ret _ _))

end

/-- Every next state of an instruction is one of its effects. -/
theorem exec_effect (i : Instr) (s : State) : EveryNext (Effect s i) (exec i s) := by
  cases i with
  | frameReqTelemetry id crc term => exact frame_effect s _ _ _ _ fun _ u _ => u.moves_emit _
  | frameReq id payload crc term => exact frame_effect s _ _ _ _ fun _ u _ => u.moves_emit _
  | frameReplyTelemetry id data crc term =>
    exact frame_effect s _ _ _ _ fun hc u hu => u.moves_dispatchReply _ hu hc
  | frameReplyBadlen id data crc term => exact frame_effect s _ _ _ _ fun _ u _ => u.moves_fail _
  | frameReplyOther id payload crc term => exact frame_effect s _ _ _ _ fun _ u _ => u.moves_fail _
  | reset => simpa [exec, execReset] using fun _ => Effect.reset rfl
  | run => exact execRun_effect s _
  | shutdown => exact execShutdown_effect s _
  | fatal =>
    exact (everyNext_next _ _).2 (.moves (s.moves_fatalStop.trans (State.moves_ret _ _)))
  | frStart =>
    simpa [exec, execFrStart] using
      fun _ => Effect.reader rfl readerStart .nothing fun _ => readerOk_readerStart
  | frByteHunt b => exact frByteOp_effect s _ rfl .hunt b
  | frByteKind b => exact frByteOp_effect s _ rfl .kind b
  | frByteHdr b => exact frByteOp_effect s _ rfl .hdr b
  | frByteBody b => exact frByteOp_effect s _ rfl .body b
  | frByteLast b => exact frByteOp_effect s _ rfl .last b
  | frTimeout =>
    simpa [exec, execFrTimeout] using
      fun _ => Effect.reader rfl _ _ fun _ => readerOk_timeout s.fr
  | frFault =>
    simpa [exec, execFrFault] using fun _ => Effect.reader rfl _ _ fun _ => readerOk_fault s.fr
  | tcDecode c hdr => exact execTcDecode_effect s _ c hdr
  | tcEncode id cmd => exact execTcEncode_effect s _ id cmd
  | psTick t => exact execPsTick_effect s _ t
  | psNoteTraffic t => exact (everyNext_next _ _).2 (.noteTraffic rfl t)
  | saAccept k rec u => exact execSaAccept_effect s _ rfl k rec u
  | saFlush t => exact (everyNext_next _ _).2 (flush_effect s _ true t)
  | saFinalFlush t => exact (everyNext_next _ _).2 (flush_effect s _ false t)
  | crcReset => simp [exec, execCrcReset]
  | crcByte b => simp [exec, execCrcByte]
  | crcBlock bytes => simp [exec, execCrcBlock]
  | crcValue => simp [exec, execCrcValue]
  | crcCheck c len => simp [exec, execCrcCheck]
  | fvValidate c => simp [exec, execFvValidate]
  | fvHeader c => simp [exec, execFvHeader]
  | tcUnpackAscii bytes => simp [exec, execTcUnpackAscii]
  | tcUnpackU8 b => simp [exec, execTcUnpackU8]
  | tcUnpackU16 name b0 b1 => simp [exec, execTcUnpackU16]
  | tcUnpackU32 name b0 b1 b2 b3 => simp [exec, execTcUnpackU32]
  | tcUnpackRaw32 b0 b1 b2 b3 => simp [exec, execTcUnpackRaw32]
  | tcUnpackPad bytes => simp [exec, execTcUnpackPad]
  | tcScale raw exp unit => simp [exec, execTcScale]

end Sys2Proof.Machine
end

section
/-! The invariant of every reachable state (10_state.md R52 (a) to (d) and (g)): its conjuncts by
name, that every elementary move keeps them, and that every step does. -/

namespace Sys2Proof.Machine

/-! ### Device entries -/

/-- The conjuncts of `deviceOk` by name (R42, R52 (a), (c), (d)). -/
structure DeviceOk (d : Device) : Prop where
  idle : d.psState = .idle
  fresh : d.created = false →
    d.lastSample = none ∧ d.total = none ∧ d.lastReported = none ∧ d.buf = []
  latched : d.created = d.serial.isSome
  serialLength : ∀ bs ∈ d.serial, bs.length = 18
  reported : d.lastReported ≠ none → d.total ≠ none

theorem deviceOk_iff (d : Device) : deviceOk d = true ↔ DeviceOk d := by
  simp only [deviceOk, Bool.and_eq_true, Bool.or_eq_true, decide_eq_true_eq]
  constructor
  · rintro ⟨⟨⟨⟨hidle, hfresh⟩, hlatched⟩, hlength⟩, hreported⟩
    exact ⟨hidle, fun hc => hfresh.resolve_left (by simp [hc]), hlatched, hlength, hreported⟩
  · rintro ⟨hidle, hfresh, hlatched, hlength, hreported⟩
    refine ⟨⟨⟨⟨hidle, ?_⟩, hlatched⟩, hlength⟩, hreported⟩
    cases hc : d.created
    · exact .inr (hfresh hc)
    · exact .inl rfl

theorem deviceOk_reset (id : Byte) : DeviceOk (Device.reset id) := by
  rw [← deviceOk_iff]
  rfl

namespace DeviceOk
variable {d : Device}

theorem setId (h : DeviceOk d) (id : Byte) : DeviceOk { d with id := id } := { h with }

theorem setIdle (h : DeviceOk d) : DeviceOk { d with psState := .idle } := { h with idle := rfl }

/-- A flush empties a buffer and reports a total only where there is one (45_sample_accumulator.md
R265, R266). -/
theorem flushDevice (h : DeviceOk d) (cfg : Config) (report : Bool) (i : Nat) (as : List Answer) :
    DeviceOk (flushDevice cfg report i d as).dev := by
  obtain ⟨buf, lr, hdev, hbuf, hlr⟩ := flushDevice_dev cfg report i d as
  rw [hdev]
  refine { h with fresh := fun hc => ?_, reported := fun hne => ?_ }
  · obtain ⟨hsample, htotal, hreported, hempty⟩ := h.fresh hc
    refine ⟨hsample, htotal, ?_, ?_⟩
    · obtain rfl | ⟨-, hsome⟩ := hlr
      · exact hreported
      · exact absurd htotal hsome
    · obtain rfl | ⟨rfl, -⟩ := hbuf
      · exact hempty
      · rfl
  · obtain rfl | ⟨-, hsome⟩ := hlr
    · exact h.reported hne
    · exact hsome

/-- Creation latches the serial, which has 18 bytes in a complete record (R260). -/
theorem createDevice (h : DeviceOk d) (cfg : Config) (i : Nat) (rec : TelemetryRecord)
    (form : recordComplete rec = true) :
    DeviceOk (createDevice cfg i rec d).1 ∧ (createDevice cfg i rec d).1.created = true := by
  rw [createDevice_spec]
  cases hc : d.created
  · refine ⟨{ h with fresh := ?_, latched := rfl, serialLength := ?_ }, rfl⟩
    · exact fun hcontra => absurd hcontra (by simp)
    · simp [(serialOf_spec rec form).2]
  · exact ⟨h, hc⟩

/-- What passes the gate is a total with its sample time, so a total that was reported stays one
(R261, R263). -/
theorem storeSample (h : DeviceOk d) (hc : d.created = true) (cfg : Config) (i : Nat)
    (rec : TelemetryRecord) (t : Time) : DeviceOk (storeSample cfg i rec t d).1 := by
  rw [storeSample_spec]
  dsimp only
  split
  · exact { h with
      fresh := fun hcontra => absurd (hc.symm.trans hcontra) (by simp)
      reported := by simp }
  · exact h

theorem acceptDevice (h : DeviceOk d) (cfg : Config) (i : Nat) (rec : TelemetryRecord) (t : Time)
    (form : recordComplete rec = true) : DeviceOk (acceptDevice cfg i rec t d).1 :=
  have hcreate := h.createDevice cfg i rec form
  hcreate.1.storeSample hcreate.2 cfg i rec t

end DeviceOk

/-! ### The device table -/

section
variable {P : Device → Prop} (s : State)

/-- A property of every entry survives an accepted record when the entry's update keeps it. -/
theorem forall_devs_accept (i : Nat) (rec : TelemetryRecord) (t : Time) (h : ∀ d ∈ s.devs, P d)
    (hP : ∀ d, P d → P (acceptDevice s.cfg i rec t d).1) : ∀ d ∈ (s.accept i rec t).devs, P d := by
  unfold State.accept
  cases hd : s.devs[i]? with
  | none => exact h
  | some d =>
    intro e he
    obtain he | rfl := List.mem_or_eq_of_mem_set he
    · exact h e he
    · exact hP d (h d (List.mem_of_getElem? hd))

/-- A property of every entry survives a flush when the flush of one entry keeps it. -/
theorem forall_devs_flush (report : Bool) (t : Time) (h : ∀ d ∈ s.devs, P d)
    (hP : ∀ d k as, P d → P (flushDevice s.cfg report k d as).dev) :
    ∀ d ∈ (s.flush report t).devs, P d := by
  intro e he
  obtain ⟨d, hd, k, as, rfl⟩ := (flushFrom_devs s.cfg report 0 s.devs s.env.answers).2 e he
  exact hP d k as (h d hd)

/-- A property of every entry survives a scheduler evaluation when it does not need the scheduler
state. -/
theorem forall_devs_tick (t : Time) (h : ∀ d ∈ s.devs, P d)
    (hP : ∀ d, P d → P { d with psState := .idle }) : ∀ d ∈ (s.tick t).devs, P d := by
  obtain ⟨acc, tb, htick, -⟩ := tick_spec s t
  rw [htick]
  exact List.forall_mem_map.2 fun d hd => hP d (h d hd)

end

/-! ### The set-up of a run -/

/-- The configuration and the addresses are kept, and a run that has begun goes on (R31). -/
structure State.KeepsSetup (s t : State) : Prop where
  cfg : t.cfg = s.cfg
  ids : t.devs.map (·.id) = s.devs.map (·.id)
  running : s.running = true → t.running = true

namespace State
variable {s t u : State}

theorem KeepsSetup.refl (s : State) : s.KeepsSetup s := ⟨rfl, rfl, id⟩

theorem KeepsSetup.trans (h : s.KeepsSetup t) (h' : t.KeepsSetup u) : s.KeepsSetup u :=
  ⟨h'.cfg.trans h.cfg, h'.ids.trans h.ids, h'.running ∘ h.running⟩

theorem keepsSetup_accept (s : State) (i : Nat) (rec : TelemetryRecord) (t : Time) :
    s.KeepsSetup (s.accept i rec t) := by
  obtain ⟨ds, es, h, ids⟩ := accept_spec s i rec t
  exact h ▸ ⟨rfl, ids, id⟩

theorem keepsSetup_flush (s : State) (report : Bool) (t : Time) :
    s.KeepsSetup (s.flush report t) := by
  obtain ⟨ds, left, es, h, ids, -⟩ := flush_spec s report t
  exact h ▸ ⟨rfl, ids, id⟩

theorem keepsSetup_tick (s : State) (t : Time) : s.KeepsSetup (s.tick t) := by
  obtain ⟨acc, tb, h, -⟩ := tick_spec s t
  exact h ▸ ⟨rfl, by simp [Function.comp_def], id⟩

theorem Move.keepsSetup (h : s.Move t) : s.KeepsSetup t := by
  cases h with
  | tick t => exact s.keepsSetup_tick t
  | flush report t => exact s.keepsSetup_flush report t
  | accept i rec => exact s.keepsSetup_accept i rec _
  | scratch | encode | record | stop | stamp => exact ⟨rfl, rfl, id⟩

theorem Moves.keepsSetup (h : s.Moves t) : s.KeepsSetup t := by
  induction h with
  | refl => exact .refl s
  | tail _ hmove ih => exact ih.trans hmove.keepsSetup

end State

/-- Only RESET touches the configuration or an address. -/
theorem Effect.keepsSetup {s t : State} {i : Instr} (h : Effect s i t) :
    (i = .reset ∧ t = .resetWith s.cfg.crc s.env) ∨ s.KeepsSetup t := by
  cases h with
  | reset hi => exact .inl ⟨hi, rfl⟩
  | moves h => exact .inr h.keepsSetup
  | run r config registers ended h =>
    have hfreeze : s.KeepsSetup (s.freeze.setFr r) := ⟨rfl, rfl, fun _ => rfl⟩
    exact .inr (hfreeze.trans h.keepsSetup)
  | accept hi k rec u form => exact .inr { s.keepsSetup_accept k rec u with }
  | reader | noteTraffic => exact .inr ⟨rfl, rfl, id⟩

/-! ### The invariant -/

/-- The conjuncts of `State.inv` by name; the size of CB follows from the reader's registers
(20_memory.md R64). -/
structure State.InvParts (s : State) : Prop where
  devices : ∀ d ∈ s.devs, DeviceOk d
  reader : readerOk s.fr = true
  tbSize : bufferWf s.tb = true
  record : s.record = [] ∨ recordComplete s.record = true
  fatal : s.loop.fatal = true → s.loop.halted = true
  frozen : s.running = true → configOk s.cfg s.devs = true ∧ s.fr.phase = .idle

theorem State.inv_iff (s : State) : s.Inv ↔ s.InvParts := by
  simp only [State.Inv, State.inv, Bool.and_eq_true, Bool.or_eq_true, Bool.not_eq_true',
    ← Bool.not_eq_true, ← imp_iff_not_or, decide_eq_true_eq, List.all_eq_true, deviceOk_iff]
  constructor
  · rintro ⟨⟨⟨⟨⟨⟨hdevices, hreader⟩, -⟩, htb⟩, hrecord⟩, hfatal⟩, hfrozen⟩
    exact ⟨hdevices, hreader, htb, hrecord, hfatal, hfrozen⟩
  · rintro ⟨hdevices, hreader, htb, hrecord, hfatal, hfrozen⟩
    exact ⟨⟨⟨⟨⟨⟨hdevices, hreader⟩, bufferWf_of_readerOk _ hreader⟩, htb⟩, hrecord⟩, hfatal⟩,
      hfrozen⟩

theorem State.invParts_resetWith (crc : CrcParams) (env : Env) :
    (State.resetWith crc env).InvParts where
  devices := by simp [State.resetWith]
  reader := rfl
  tbSize := bufferWf_nil
  record := .inl rfl
  fatal := by simp [State.resetWith]
  frozen := by simp [State.resetWith]

namespace State.InvParts
variable {s t : State}

/-- The device table may change where its entries stay in order and, in a run, its addresses. -/
theorem setDevs (h : s.InvParts) {ds : List Device} (hd : ∀ d ∈ ds, DeviceOk d)
    (ids : s.running = true → ds.map (·.id) = s.devs.map (·.id)) : (s.setDevs ds).InvParts :=
  { h with
    devices := hd
    frozen := fun hr => ⟨(configOk_of_ids s.cfg ds s.devs (ids hr)).trans (h.frozen hr).1,
      (h.frozen hr).2⟩ }

theorem accept (h : s.InvParts) (i : Nat) (rec : TelemetryRecord) (t : Time)
    (form : recordComplete rec = true) : (s.accept i rec t).InvParts := by
  have hd := forall_devs_accept s i rec t h.devices fun d hd => hd.acceptDevice s.cfg i rec t form
  obtain ⟨ds, es, he, ids⟩ := accept_spec s i rec t
  rw [he] at hd ⊢
  exact { h.setDevs hd fun _ => ids with }

theorem flush (h : s.InvParts) (report : Bool) (t : Time) : (s.flush report t).InvParts := by
  have hd := forall_devs_flush s report t h.devices fun d k as hd => hd.flushDevice s.cfg report k as
  obtain ⟨ds, left, es, he, ids, -⟩ := flush_spec s report t
  rw [he] at hd ⊢
  exact { h.setDevs hd fun _ => ids with }

theorem tick (h : s.InvParts) (t : Time) : (s.tick t).InvParts := by
  have hd := forall_devs_tick s t h.devices fun d hd => hd.setIdle
  have ids := (s.keepsSetup_tick t).ids
  obtain ⟨acc, tb, he, htb⟩ := tick_spec s t
  rw [he] at hd ids ⊢
  refine { h.setDevs hd fun _ => ids with tbSize := ?_ }
  obtain rfl | rfl := htb
  · exact h.tbSize
  · exact bufferWf_nil

theorem move (h : s.InvParts) (hm : s.Move t) : t.InvParts := by
  cases hm with
  | tick t => exact h.tick t
  | flush report t => exact h.flush report t
  | accept i rec form => exact h.accept i rec _ form
  | encode tb size => exact { h with tbSize := size }
  | record rec form => exact { h with record := form }
  | stop l halted => exact { h with fatal := fun _ => halted }
  | scratch | stamp => exact { h with }

theorem moves (h : s.InvParts) (hm : s.Moves t) : t.InvParts := by
  induction hm with
  | refl => exact h
  | tail _ hmove ih => exact ih.move hmove

/-- What an instruction does keeps the invariant; an operation of the frame reader only before a run,
where alone the port takes it. -/
theorem effect (h : s.InvParts) {i : Instr} (hport : performer i = .host ∨ s.running = false)
    (he : Effect s i t) : t.InvParts := by
  cases he with
  | moves hm => exact h.moves hm
  | reset => exact invParts_resetWith _ _
  | run r config registers ended hm =>
    have hstart : (s.freeze.setFr r).InvParts :=
      { h with reader := registers, frozen := fun _ => ⟨config, ended⟩ }
    exact hstart.moves hm
  | reader hi r res registers =>
    have hr : s.running = false := hport.resolve_left (by simp [hi])
    exact { h with reader := registers h.reader, frozen := fun hr' => absurd hr' (by simp [hr]) }
  | noteTraffic => exact { h with }
  | accept hi k rec u form => exact { h.accept k rec u form with }

end State.InvParts

/-! ### A step -/

/-- What a configuration write can do: before a run, it changes the table, each entry being a fresh
one or an old one with an address, or it changes the configuration but for the CRC parameters (R22,
R31). -/
theorem hostWrite_next (s t : State) (w : CfgWrite) (h : s.hostWrite w = .next t) :
    s.running = false
      ∧ ((∃ ds, t = s.setDevs ds
            ∧ ∀ d ∈ ds, (∃ id, d = Device.reset id) ∨ ∃ e ∈ s.devs, ∃ id, d = { e with id := id })
        ∨ ∃ cfg, t = s.setCfg cfg ∧ cfg.crc = s.cfg.crc) := by
  unfold State.hostWrite at h
  cases hr : s.running
  swap
  · simp [hr] at h
  refine ⟨rfl, ?_⟩
  simp only [hr] at h
  cases w with
  | nDev n =>
    refine .inl ⟨_, (Host.Outcome.next.inj h).symm, fun d hd => ?_⟩
    obtain hd | hd := List.mem_append.1 hd
    · exact .inr ⟨d, List.mem_of_mem_take hd, d.id, rfl⟩
    · exact .inl ⟨_, (List.mem_replicate.1 hd).2⟩
  | devId i id =>
    cases hd : s.devs[i]? with
    | none => simp [hd] at h
    | some d =>
      simp only [hd] at h
      refine .inl ⟨_, (Host.Outcome.next.inj h).symm, fun e he => ?_⟩
      obtain he | rfl := List.mem_or_eq_of_mem_set he
      · exact .inr ⟨e, he, e.id, rfl⟩
      · exact .inr ⟨d, List.mem_of_getElem? hd, id, rfl⟩
  | scale name exp unit =>
    cases hf : fixedScale name with
    | some e => simp [hf] at h
    | none =>
      simp only [hf] at h
      exact .inr ⟨_, (Host.Outcome.next.inj h).symm, rfl⟩
  | _ => exact .inr ⟨_, (Host.Outcome.next.inj h).symm, rfl⟩

theorem State.InvParts.hostWrite {s t : State} (h : s.InvParts) (w : CfgWrite)
    (hw : s.hostWrite w = .next t) : t.InvParts := by
  obtain ⟨hr, ⟨ds, rfl, hds⟩ | ⟨cfg, rfl, -⟩⟩ := hostWrite_next s t w hw
  · refine h.setDevs (fun d hd => ?_) fun hr' => absurd hr' (by simp [hr])
    obtain ⟨id, rfl⟩ | ⟨e, he, id, rfl⟩ := hds d hd
    · exact deviceOk_reset id
    · exact (h.devices e he).setId id
  · exact { h with frozen := fun hr' => absurd hr' (by simp [hr]) }

/-- What the port takes is an operation of the host, or is given before a run (R322). -/
theorem host_or_not_running_of_portRefusal {s : State} {i : Instr} (h : s.portRefusal i = none) :
    performer i = .host ∨ s.running = false :=
  ((portRefusal_eq_none_iff s i).1 h).imp_right fun hr => hr.1

theorem State.InvParts.stepItem {s t : State} (h : s.InvParts) (item : HostItem)
    (hstep : stepItem s item = .next t) : t.InvParts := by
  cases item with
  | op bs =>
    obtain ⟨i, -, hport, hexec⟩ := stepItem_op_next s t bs hstep
    exact h.effect (host_or_not_running_of_portRefusal hport) (exec_effect i s t hexec)
  | frame bs =>
    obtain ⟨i, -, hport, hexec⟩ := stepItem_frame_next s t bs hstep
    exact h.effect (host_or_not_running_of_portRefusal hport) (exec_effect i s t hexec)
  | cfg w => exact h.hostWrite w hstep
  | time | rx | answer =>
    obtain rfl := Host.Outcome.next.inj hstep
    exact { h with }

/-- Settles O54: a step is its item, an item at most one instruction, an instruction a sequence of
moves that each keep the conjuncts, or RESET, or RUN, whose check is what freezes a well-formed
configuration. -/
theorem everyStepKeepsTheInvariant : Obligations.EveryStepKeepsTheInvariant := by
  intro s t hs hstep
  rw [State.inv_iff] at hs ⊢
  obtain ⟨-, rfl⟩ | ⟨item, items, -, hitem⟩ := step_next s t hstep
  · exact hs
  · have hs' : (s.setInbox items).InvParts := { hs with }
    exact hs'.stepItem item hitem

end Sys2Proof.Machine
end

section
/-! The order of time stamps (10_state.md R52 (e), (f)): while `now` does not decrease, every move of
an iteration keeps the buffers in time order and the accepted samples covered by the traffic stamp.
At the end the state after reset (R51). -/

namespace Sys2Proof.Machine

/-! ### Device entries -/

/-- What `State.Ordered` says of one entry, for a time input and a traffic stamp. -/
structure DeviceOrdered (now : Time) (stamp : Option Time) (d : Device) : Prop where
  sorted : (d.buf.map (·.t)).Pairwise (· ≤ ·)
  past : ∀ x ∈ d.buf, x.t ≤ now
  covered : ∀ v ∈ d.lastSample, ∃ u ∈ stamp, v ≤ u

theorem deviceOrdered_reset (now : Time) (stamp : Option Time) (id : Byte) :
    DeviceOrdered now stamp (Device.reset id) := by
  constructor <;> simp [Device.reset]

namespace DeviceOrdered
variable {now : Time} {stamp : Option Time} {d : Device}

theorem setId (h : DeviceOrdered now stamp d) (id : Byte) :
    DeviceOrdered now stamp { d with id := id } := { h with }

theorem setIdle (h : DeviceOrdered now stamp d) :
    DeviceOrdered now stamp { d with psState := .idle } := { h with }

theorem later (h : DeviceOrdered now stamp d) {now' : Time} (hle : now ≤ now') :
    DeviceOrdered now' stamp d := { h with past := fun x hx => (h.past x hx).trans hle }

/-- A traffic note at `now` covers what an older stamp covered. -/
theorem stampNow (h : DeviceOrdered now stamp d) (hstamp : ∀ u ∈ stamp, u ≤ now) :
    DeviceOrdered now (some now) d :=
  { h with
    covered := fun v hv =>
      have ⟨u, hu, hvu⟩ := h.covered v hv
      ⟨now, rfl, hvu.trans (hstamp u hu)⟩ }

/-- A flush keeps a buffer or empties it, and no sample time moves. -/
theorem flushDevice (h : DeviceOrdered now stamp d) (cfg : Config) (report : Bool) (i : Nat)
    (as : List Answer) : DeviceOrdered now stamp (flushDevice cfg report i d as).dev := by
  obtain ⟨buf, lr, hdev, hbuf, -⟩ := flushDevice_dev cfg report i d as
  rw [hdev]
  obtain rfl | ⟨rfl, -⟩ := hbuf
  · exact { h with }
  · exact { h with sorted := .nil, past := by simp }

theorem createDevice (h : DeviceOrdered now stamp d) (cfg : Config) (i : Nat)
    (rec : TelemetryRecord) : DeviceOrdered now stamp (createDevice cfg i rec d).1 := by
  rw [createDevice_spec]
  dsimp only
  split
  · exact h
  · exact { h with }

/-- A sample stored at `now` is the latest of its buffer, and the stamp of `now` covers it. -/
theorem storeSample (h : DeviceOrdered now (some now) d) (cfg : Config) (i : Nat)
    (rec : TelemetryRecord) : DeviceOrdered now (some now) (storeSample cfg i rec now d).1 := by
  have hcovered : ∀ v ∈ some now, ∃ u ∈ some now, v ≤ u := fun v hv => ⟨v, hv, le_rfl⟩
  rw [storeSample_spec]
  dsimp only
  split
  · split
    · refine ⟨?_, ?_, hcovered⟩
      · simpa [List.pairwise_append, sampleOf] using ⟨h.sorted, h.past⟩
      · simpa [or_imp, forall_and, sampleOf] using h.past
    · exact { h with covered := hcovered }
  · exact h

theorem acceptDevice (h : DeviceOrdered now (some now) d) (cfg : Config) (i : Nat)
    (rec : TelemetryRecord) : DeviceOrdered now (some now) (acceptDevice cfg i rec now d).1 :=
  (h.createDevice cfg i rec).storeSample cfg i rec

end DeviceOrdered

/-! ### The state -/

namespace State
variable {s t : State}

theorem ordered_iff :
    s.Ordered ↔ (∀ u ∈ s.clk.lastTraffic, u ≤ s.env.now)
      ∧ ∀ d ∈ s.devs, DeviceOrdered s.env.now s.clk.lastTraffic d :=
  ⟨fun h => ⟨h.traffic, fun d hd => ⟨(h.buffers d hd).1, (h.buffers d hd).2, h.samples d hd⟩⟩,
    fun ⟨htraffic, hdevs⟩ => ⟨fun d hd => ⟨(hdevs d hd).sorted, (hdevs d hd).past⟩, htraffic,
      fun d hd => (hdevs d hd).covered⟩⟩

theorem ordered_resetWith (crc : CrcParams) (env : Env) : (resetWith crc env).Ordered := by
  constructor <;> simp [resetWith]

namespace Ordered

theorem devices (h : s.Ordered) : ∀ d ∈ s.devs, DeviceOrdered s.env.now s.clk.lastTraffic d :=
  (ordered_iff.1 h).2

theorem setDevs (h : s.Ordered) {ds : List Device}
    (hd : ∀ d ∈ ds, DeviceOrdered s.env.now s.clk.lastTraffic d) : (s.setDevs ds).Ordered :=
  ordered_iff.2 ⟨h.traffic, hd⟩

theorem flush (h : s.Ordered) (report : Bool) (t : Time) : (s.flush report t).Ordered :=
  { h.setDevs (forall_devs_flush s report t h.devices
      fun _ k as hd => hd.flushDevice s.cfg report k as) with }

theorem tick (h : s.Ordered) (t : Time) : (s.tick t).Ordered := by
  have hd := forall_devs_tick s t h.devices fun d hd => hd.setIdle
  obtain ⟨acc, tb, he, -⟩ := tick_spec s t
  rw [he] at hd ⊢
  exact { h.setDevs hd with }

theorem acceptNow (h : s.Ordered) (i : Nat) (rec : TelemetryRecord)
    (stamped : s.clk.lastTraffic = some s.env.now) : (s.accept i rec s.env.now).Ordered := by
  have hdevs := h.devices
  rw [stamped] at hdevs
  have hd := forall_devs_accept s i rec s.env.now hdevs fun d hd => hd.acceptDevice s.cfg i rec
  obtain ⟨ds, es, he, -⟩ := accept_spec s i rec s.env.now
  rw [he] at hd ⊢
  exact { h.setDevs (stamped ▸ hd) with }

theorem stampNow (h : s.Ordered) : (s.setLastTraffic s.env.now).Ordered :=
  ordered_iff.2 ⟨by simp, fun d hd => (h.devices d hd).stampNow h.traffic⟩

/-- The time input may move on. -/
theorem setNow (h : s.Ordered) {n : Time} (hle : s.env.now ≤ n) : (s.setNow n).Ordered :=
  ordered_iff.2 ⟨fun u hu => (h.traffic u hu).trans hle, fun d hd => (h.devices d hd).later hle⟩

theorem move (h : s.Ordered) (hm : s.Move t) : t.Ordered := by
  cases hm with
  | tick t => exact h.tick t
  | flush report t => exact h.flush report t
  | accept i rec form stamped => exact h.acceptNow i rec stamped
  | stamp => exact h.stampNow
  | scratch | encode | record | stop => exact { h with }

theorem moves (h : s.Ordered) (hm : s.Moves t) : t.Ordered := by
  induction hm with
  | refl => exact h
  | tail _ hmove ih => exact ih.move hmove

end Ordered

/-! ### The time input -/

theorem Move.now (hm : s.Move t) : t.env.now = s.env.now := by
  cases hm with
  | tick t =>
    obtain ⟨acc, tb, he, -⟩ := tick_spec s t
    rw [he]
  | accept i rec =>
    obtain ⟨ds, es, he, -⟩ := accept_spec s i rec s.env.now
    rw [he]
    rfl
  | scratch | encode | record | flush | stop | stamp => rfl

theorem Moves.now (hm : s.Moves t) : t.env.now = s.env.now := by
  induction hm with
  | refl => rfl
  | tail _ hmove ih => exact hmove.now.trans ih

end State

/-! ### The instructions and a step -/

/-- An operation of the host or a frame keeps the order and the time input; the units' operations
given with a time of their own are not among them. -/
theorem Effect.ordered {s t : State} {i : Instr} (he : Effect s i t)
    (hi : performer i = .host ∨ performer i = .bus) (h : s.Ordered) :
    t.Ordered ∧ t.env.now = s.env.now := by
  cases he with
  | moves hm => exact ⟨h.moves hm, hm.now⟩
  | reset => exact ⟨State.ordered_resetWith _ _, rfl⟩
  | run r config registers ended hm =>
    have hstart : (s.freeze.setFr r).Ordered := { h with }
    exact ⟨hstart.moves hm, hm.now⟩
  | reader hfr => simp [hfr] at hi
  | noteTraffic hps => simp [hps] at hi
  | accept hsa => simp [hsa] at hi

theorem performer_requestRow (id : Byte) (payload : List Byte) (crc : Word16) (term : Byte) :
    performer (requestRow id payload crc term) = .bus := by
  unfold requestRow
  split <;> rfl

theorem performer_replyRow (id : Byte) (payload : List Byte) (crc : Word16) (term : Byte) :
    performer (replyRow id payload crc term) = .bus := by
  unfold replyRow
  split
  · split <;> rfl
  · rfl

/-- The frame map answers frame rows alone (30_encoding.md R99, R116). -/
theorem performer_of_fetchFrame (s : State) (bs : List Byte) (i : Instr)
    (h : s.fetchFrame bs = .instr i) : performer i = .bus := by
  replace h : decodeFrame bs = .instr i := h
  rcases bs with _ | ⟨stx, _ | ⟨kind, _ | ⟨id, _ | ⟨len, rest⟩⟩⟩⟩
  case cons.cons.cons.cons =>
    simp only [decodeFrame] at h
    split at h
    · cases h
    split at h
    · cases h
    split at h
    · split at h
      · obtain rfl := Decoded.instr.inj h
        exact performer_requestRow _ _ _ _
      · obtain rfl := Decoded.instr.inj h
        exact performer_replyRow _ _ _ _
    · cases h
  all_goals
    simp only [decodeFrame] at h
    repeat' split at h
    all_goals cases h

theorem State.Ordered.hostWrite {s t : State} (h : s.Ordered) (w : CfgWrite)
    (hw : s.hostWrite w = .next t) : t.Ordered := by
  obtain ⟨-, ⟨ds, rfl, hds⟩ | ⟨cfg, rfl, -⟩⟩ := hostWrite_next s t w hw
  · refine h.setDevs fun d hd => ?_
    obtain ⟨id, rfl⟩ | ⟨e, he, id, rfl⟩ := hds d hd
    · exact deviceOrdered_reset _ _ id
    · exact (h.devices e he).setId id
  · exact { h with }

/-- An item keeps the order when it does not set the time input back and is no unit operation. -/
theorem State.Ordered.stepItem {s t : State} (h : s.Ordered) (item : HostItem)
    (hmove : ∀ bs i, item = .op bs → s.fetchOperation bs = .instr i → s.portRefusal i = none →
      performer i = .host ∨ performer i = .bus)
    (hstep : stepItem s item = .next t) (hle : s.env.now ≤ t.env.now) : t.Ordered := by
  cases item with
  | op bs =>
    obtain ⟨i, hfetch, hport, hexec⟩ := stepItem_op_next s t bs hstep
    exact ((exec_effect i s t hexec).ordered (hmove bs i rfl hfetch hport) h).1
  | frame bs =>
    obtain ⟨i, hfetch, -, hexec⟩ := stepItem_frame_next s t bs hstep
    exact ((exec_effect i s t hexec).ordered (.inr (performer_of_fetchFrame s bs i hfetch)) h).1
  | cfg w => exact h.hostWrite w hstep
  | time n =>
    obtain rfl := Host.Outcome.next.inj hstep
    exact h.setNow hle
  | rx | answer =>
    obtain rfl := Host.Outcome.next.inj hstep
    exact { h with }

/-- In a run the port takes the host's operations alone (R322), and before one the premise leaves only
those and the frames. -/
theorem State.HostMove.performer {s : State} (h : s.HostMove) {bs : List Byte}
    {items : List HostItem} {i : Instr} (hinbox : s.env.inbox = .op bs :: items)
    (hfetch : s.fetchOperation bs = .instr i) (hport : s.portRefusal i = none) :
    performer i = .host ∨ performer i = .bus := by
  obtain hrun | hop := h
  · exact .inl ((host_or_not_running_of_portRefusal hport).resolve_right (by simp [hrun]))
  · exact hop bs items i hinbox hfetch

/-- Settles O55: the moves of an iteration keep the order, for they store samples at the time just
sampled and noted, and a step that does not set the time input back is one of them, a
configuration write or an input. -/
theorem iterationsKeepTimeStampsOrdered : Obligations.IterationsKeepTimeStampsOrdered := by
  refine ⟨fun s t i hi hs hexec => (exec_effect i s t hexec).ordered hi hs, ?_⟩
  intro s t hs hmove hstep hle
  obtain ⟨-, rfl⟩ | ⟨item, items, hinbox, hitem⟩ := step_next s t hstep
  · exact hs
  · have hs' : (s.setInbox items).Ordered := { hs with }
    refine hs'.stepItem item (fun bs i hop hfetch hport => ?_) hitem hle
    exact hmove.performer (hop ▸ hinbox) hfetch hport

/-! ### Reset -/

/-- Settles O1. -/
theorem resetLeavesTheSpecValues : Obligations.ResetLeavesTheSpecValues :=
  ⟨rfl, rfl, rfl, rfl, rfl, rfl, rfl, rfl, fun _ => rfl⟩

/-- Settles O2, as the case of the power-on parameters and environment. -/
theorem resetStateMeetsTheInvariant : Obligations.ResetStateMeetsTheInvariant :=
  ⟨State.reset.inv_iff.2 (State.invParts_resetWith _ _), State.ordered_resetWith _ _⟩

end Sys2Proof.Machine
end

section
/-! The frozen configuration (10_state.md R22, R31; 70_reset_and_hazards.md R341): before a run a
configuration write changes the one value it names, and afterwards only RESET changes any. -/

namespace Sys2Proof.Machine

/-! ### The scale table -/

/-- The three entries of SCALE the source fixes (30_encoding.md R110). -/
theorem fixedScale_ne_none_iff (name : MeasField) :
    fixedScale name ≠ none
      ↔ name = .u16 .ac1V ∨ name = .u32 .feedInTime ∨ name = .u32 .totalEnergy := by
  cases name with
  | u16 f => cases f <;> decide
  | u32 f => cases f <;> decide

/-- Looking up past removed entries finds what stands for every other key. -/
theorem lookup_filter_ne {α β : Type} [BEq α] [LawfulBEq α] (l : List (α × β)) (a k : α)
    (h : k ≠ a) :
    (l.filter (fun x => !(x.1 == a))).lookup k = l.lookup k := by
  induction l with
  | nil => rfl
  | cons e l ih =>
    obtain ⟨b, v⟩ := e
    by_cases hb : b = a
    · subst hb
      simpa [List.lookup, beq_eq_false_iff_ne.2 h] using ih
    · simp [hb, List.lookup, ih]

/-- A write changes the entry it names and no other, where the source does not fix it. -/
theorem scaleOf_writeScale (cfg : Config) (name : MeasField) (e : Scale) (n : MeasField)
    (hfree : fixedScale name = none) :
    scaleOf (writeScale cfg name e) n = if n = name then e else scaleOf cfg n := by
  by_cases hn : n = name
  · subst hn
    simp [scaleOf, hfree, writeScale]
  · simp [scaleOf, writeScale, List.lookup, beq_eq_false_iff_ne.2 hn, lookup_filter_ne _ _ _ hn, hn]

/-! ### What a step keeps -/

theorem Effect.keepsCrc {s t : State} {i : Instr} (h : Effect s i t) : t.cfg.crc = s.cfg.crc := by
  obtain ⟨-, rfl⟩ | hkeeps := h.keepsSetup
  · rfl
  · rw [hkeeps.cfg]

/-- No item changes the CRC parameters (R22). -/
theorem stepItem_keepsCrc (s : State) (item : HostItem) :
    EveryNext (fun t => t.cfg.crc = s.cfg.crc) (stepItem s item) := by
  intro t h
  cases item with
  | op bs =>
    obtain ⟨i, -, -, hexec⟩ := stepItem_op_next s t bs h
    exact (exec_effect i s t hexec).keepsCrc
  | frame bs =>
    obtain ⟨i, -, -, hexec⟩ := stepItem_frame_next s t bs h
    exact (exec_effect i s t hexec).keepsCrc
  | cfg w =>
    obtain ⟨-, ⟨ds, rfl, -⟩ | ⟨cfg, rfl, hcrc⟩⟩ := hostWrite_next s t w h
    · rfl
    · exact hcrc
  | time | rx | answer =>
    obtain rfl := Host.Outcome.next.inj h
    rfl

theorem step_keepsCrc (s : State) : EveryNext (fun t => t.cfg.crc = s.cfg.crc) (step s) := by
  intro t h
  obtain ⟨-, rfl⟩ | ⟨item, items, -, hitem⟩ := step_next s t h
  · rfl
  · exact stepItem_keepsCrc (s.setInbox items) item t hitem

/-- In a run an item is RESET or keeps the set-up (R31). -/
theorem stepItem_running (s t : State) (item : HostItem) (hrun : s.running = true)
    (h : stepItem s item = .next t) :
    s.KeepsSetup t ∨ ∃ bs, item = .op bs ∧ s.fetchOperation bs = .instr .reset := by
  cases item with
  | op bs =>
    obtain ⟨i, hfetch, -, hexec⟩ := stepItem_op_next s t bs h
    obtain ⟨rfl, -⟩ | hkeeps := (exec_effect i s t hexec).keepsSetup
    · exact .inr ⟨bs, rfl, hfetch⟩
    · exact .inl hkeeps
  | frame bs =>
    obtain ⟨i, hfetch, -, hexec⟩ := stepItem_frame_next s t bs h
    refine .inl ((exec_effect i s t hexec).keepsSetup.resolve_left ?_)
    rintro ⟨rfl, -⟩
    exact absurd (performer_of_fetchFrame s bs _ hfetch) (by decide)
  | cfg w => exact absurd (hostWrite_next s t w h).1 (by simp [hrun])
  | time | rx | answer =>
    obtain rfl := Host.Outcome.next.inj h
    exact .inl ⟨rfl, rfl, id⟩

theorem step_running (s t : State) (hrun : s.running = true) (h : step s = .next t) :
    s.KeepsSetup t
      ∨ ∃ bs rest, s.env.inbox = .op bs :: rest ∧ s.fetchOperation bs = .instr .reset := by
  obtain ⟨-, rfl⟩ | ⟨item, items, hinbox, hitem⟩ := step_next s t h
  · exact .inl (.refl t)
  · obtain hkeeps | ⟨bs, rfl, hfetch⟩ := stepItem_running (s.setInbox items) t item hrun hitem
    · exact .inl ⟨hkeeps.cfg, hkeeps.ids, hkeeps.running⟩
    · exact .inr ⟨bs, items, hinbox, hfetch⟩

/-! ### Configuration writes -/

/-- A configuration write that is next is made. -/
theorem step_cfg (s : State) (w : CfgWrite) (rest : List HostItem)
    (h : s.env.inbox = .cfg w :: rest) : step s = (s.setInbox rest).hostWrite w := by
  rw [step, h]
  rfl

theorem hostWrite_of_running (s : State) (w : CfgWrite) (h : s.running = true) :
    s.hostWrite w = .refused .configFrozen := if_pos h

section
variable (s : State)

/-- A write to an address writes that entry, and there is none past the table (R66). -/
theorem hostWrite_devId (h : s.running = false) (i : Nat) (id : Byte) :
    (∀ d, s.devs[i]? = some d →
        s.hostWrite (.devId i id) = .next (s.setDevs (s.devs.set i { d with id := id })))
      ∧ (s.devs.length ≤ i → s.hostWrite (.devId i id) = .refused (.noDevice i)) := by
  refine ⟨fun d hd => ?_, fun hi => ?_⟩
  · simp [State.hostWrite, h, hd]
  · simp [State.hostWrite, h, List.getElem?_eq_none hi]

/-- A write to SCALE is refused for an entry the source fixes (R110). -/
theorem hostWrite_scale (h : s.running = false) (name : MeasField) (exp : Int) (unit : Text) :
    (fixedScale name ≠ none → s.hostWrite (.scale name exp unit) = .refused .fixedParameter)
      ∧ (fixedScale name = none →
        s.hostWrite (.scale name exp unit) = .next (s.setCfg (writeScale s.cfg name ⟨exp, unit⟩))) := by
  refine ⟨fun hfixed => ?_, fun hfree => ?_⟩
  · obtain ⟨e, he⟩ := Option.ne_none_iff_exists'.1 hfixed
    simp [State.hostWrite, h, he]
  · simp [State.hostWrite, h, hfree]

end

/-- Settles O57: instructions keep the set-up but for RESET, a configuration write is no move of a
run, and before one it is made as `hostWrite` says, value by value. -/
theorem configurationIsFrozenDuringARun : Obligations.ConfigurationIsFrozenDuringARun := by
  intro s
  refine ⟨step_keepsCrc s, fun hrun t h => ?_, fun hrun w rest hinbox => ?_,
    fun hrun w rest hinbox => ?_⟩
  · exact (step_running s t hrun h).imp_left fun hkeeps =>
      ⟨hkeeps.running hrun, hkeeps.cfg, hkeeps.ids⟩
  · rw [step_cfg s w rest hinbox]
    exact hostWrite_of_running _ w hrun
  · have hstep := step_cfg s w rest hinbox
    have hidle : ¬ s.running = true := by simp [hrun]
    cases w with
    | devId i id =>
      obtain ⟨hentry, hpast⟩ := hostWrite_devId (s.setInbox rest) hrun i id
      exact ⟨fun d hd => hstep.trans (hentry d hd), fun hi => hstep.trans (hpast hi)⟩
    | scale name exp unit =>
      obtain ⟨hfixed, hfree⟩ := hostWrite_scale (s.setInbox rest) hrun name exp unit
      dsimp only
      split
      · case _ hname => exact hstep.trans (hfixed ((fixedScale_ne_none_iff name).2 hname))
      · case _ hname =>
        have hnone : fixedScale name = none :=
          not_not.1 fun hne => hname ((fixedScale_ne_none_iff name).1 hne)
        exact ⟨_, hstep.trans (hfree hnone),
          fun n => scaleOf_writeScale s.cfg name ⟨exp, unit⟩ n hnone⟩
    | sampleInterval t | logInterval t => exact ⟨.ticks t, hstep.trans (if_neg hidle), rfl⟩
    | nDev | ticksPerSecond | reporterPresent | sampleFields | bufCap | readTimeout =>
      exact hstep.trans (if_neg hidle)

end Sys2Proof.Machine
end

section
/-! Where the entries of a telemetry record stand in the frame (20_memory.md R72; 30_encoding.md R109):
the walk over a descriptor table reads each named row at the offset the rows before it add up to. -/

namespace Sys2Proof.Machine

/-- A row with a name gives that name's value, and reserved bytes give none (R206 to R211). -/
theorem unpackRow_eq_map_field (cfg : Config) (r : Row) (bs : List Byte) :
    unpackRow cfg r bs = r.field.map (fun n => (n, fieldValue cfg n bs)) := by
  obtain ⟨field, width⟩ := r
  cases field with
  | none => rfl
  | some n => cases n <;> rfl

/-- The named rows of a table that begins at offset `o`, each with its own offset and width; the rows
of reserved bytes, which have no name, are left out. -/
def placedFields (o : Nat) (rows : List Row) : List (FieldName × Nat × Nat) :=
  (rows.zip (rowOffsets o rows)).filterMap (fun e => e.1.field.map (fun n => (n, e.2, e.1.width)))

/-- The walk reads each named row at its offset, with its width (R204). -/
theorem walk_eq_map_placedFields (cfg : Config) (c : List Byte) (o : Nat) (rows : List Row) :
    walk cfg c o rows
      = (placedFields o rows).map
          (fun e => (e.1, fieldValue cfg e.1 (slice c e.2.1 (e.2.1 + e.2.2)))) := by
  induction rows generalizing o with
  | nil => rfl
  | cons r rs ih =>
    have hrest := ih (o + r.width)
    unfold placedFields at hrest ⊢
    cases hfield : r.field with
    | none => simp [walk, unpackRow_eq_map_field, rowOffsets, hfield, hrest]
    | some n => simp [walk, unpackRow_eq_map_field, rowOffsets, hfield, hrest, memRead]

/-- The offsets R72 writes out are those of R109's rows when the first begins at offset 6. -/
theorem placedFields_descriptorTable : placedFields 6 descriptorTable = frameOffsets := by decide

/-- Settles O34: the record is the walk from offset 6, whose named rows stand where R72 says. -/
theorem recordEntriesAreReadAtTheirOffsets : Obligations.RecordEntriesAreReadAtTheirOffsets := by
  intro cfg c
  rw [← placedFields_descriptorTable]
  exact walk_eq_map_placedFields cfg c 6 descriptorTable

end Sys2Proof.Machine
end

section
/-! Decoding and encoding (30_encoding.md R90, R99, R112, R116): a frame and an operation are read back
from the bytes they are written as, and the match and mask rows of the opcode table sort a frame as the
decoder does. -/

namespace Sys2Proof

open Sys2Proof.Machine

/-! ### Operations -/

/-- A form that reads back what it writes with bytes behind it does so with none behind it. -/
theorem get_put_of_append {α : Type} {get : List Byte → Option (α × List Byte)} {put : α → List Byte}
    (h : ∀ a r, get (put a ++ r) = some (a, r)) (a : α) : get (put a) = some (a, []) := by
  simpa using h a []

theorem getNat_putNat_nil (n : Nat) : getNat (putNat n) = some (n, []) :=
  get_put_of_append getNat_putNat n

theorem getSeq_putSeq_nil (s : List Byte) : getSeq (putSeq s) = some (s, []) :=
  get_put_of_append getSeq_putSeq s

theorem getHeader_putHeader_nil (h : Header) : getHeader (putHeader h) = some (h, []) :=
  get_put_of_append getHeader_putHeader h

/-- Operands that are read back behind their code make the operation. -/
theorem decodeOperation_cons {row : FrRow} {code : Byte} {operands : List Byte} {i : Instr}
    (h : decodeOperands row code.toNat operands = some (some i)) :
    decodeOperation row (code :: operands) = .instr i := by
  simp only [decodeOperation, h]

/-- R112: an operation is read back from its code and the operands behind it (log 2). -/
theorem decodeOperation_encode (i : Instr) (hspace : i.space = .operation) :
    decodeOperation i.frRow (encode i) = .instr i := by
  cases i with
  | frameReqTelemetry | frameReq | frameReplyTelemetry | frameReplyBadlen | frameReplyOther =>
    cases hspace
  -- no operand, or single bytes
  | reset | run | shutdown | fatal | crcReset | crcByte | crcValue | frStart | frByteHunt | frByteKind
  | frByteHdr | frByteBody | frByteLast | frTimeout | frFault | tcUnpackU8 | tcUnpackRaw32 => rfl
  -- one byte sequence
  | crcBlock s | fvValidate s | fvHeader s | tcUnpackAscii s | tcUnpackPad s =>
    exact decodeOperation_cons (by simp [decodeOperands, getSeq_putSeq_nil])
  -- one time
  | psTick t | psNoteTraffic t | saFlush t | saFinalFlush t =>
    exact decodeOperation_cons (by simp [decodeOperands, getNat_putNat_nil])
  -- a field's name before the field's bytes
  | tcUnpackU16 name b0 b1 =>
    have hname := getName_putName u16Names name [b0, b1] (mem_u16Names name) (by decide)
    exact decodeOperation_cons (by simp [decodeOperands, hname, getByte])
  | tcUnpackU32 name b0 b1 b2 b3 =>
    have hname := getName_putName u32Names name [b0, b1, b2, b3] (mem_u32Names name) (by decide)
    exact decodeOperation_cons (by simp [decodeOperands, hname, getByte])
  -- several operands of different forms
  | crcCheck c len =>
    exact decodeOperation_cons (by simp [decodeOperands, getSeq_putSeq, getNat_putNat_nil])
  | tcDecode c hdr =>
    exact decodeOperation_cons (by simp [decodeOperands, getSeq_putSeq, getHeader_putHeader_nil])
  | tcScale raw exp unit =>
    exact decodeOperation_cons
      (by simp [decodeOperands, getNat_putNat, getInt_putInt, getSeq_putSeq_nil])
  | tcEncode id cmd =>
    exact decodeOperation_cons (by simp [decodeOperands, getByte, getSeq_putSeq_nil])
  | saAccept dev record t =>
    exact decodeOperation_cons
      (by simp [decodeOperands, getNat_putNat, getRecord_putRecord, getNat_putNat_nil])

/-! ### Frames -/

/-- The frame instruction the decoder makes of a kind byte and what follows it (R99, R116). -/
def framed (kind id : Byte) (payload : List Byte) (crc : Word16) (term : Byte) : Instr :=
  if kind = ENQ then requestRow id payload crc term else replyRow id payload crc term

/-- A well-formed frame instruction is encoded as R90 lays frames out, and is the row of its own kind
byte and PAYLOAD. -/
theorem encode_eq_frameBytes (i : Instr) (hwf : i.wf = true) (hspace : i.space = .frame) :
    ∃ kind id payload crc term, (kind = ENQ ∨ kind = ACK) ∧ payload.length ≤ 255
      ∧ encode i = frameBytes kind id payload crc term ∧ framed kind id payload crc term = i := by
  have hack : ACK ≠ ENQ := by decide
  have hcmd (data : List Byte) : beginsTelemetry (CMD_BYTES_TELEMETRY ++ data) = true := rfl
  have hlen (data : List Byte) : (CMD_BYTES_TELEMETRY ++ data).length = data.length + 2 := by
    simp [CMD_BYTES_TELEMETRY]
  have hdrop (data : List Byte) : (CMD_BYTES_TELEMETRY ++ data).drop 2 = data := rfl
  cases i with
  | frameReqTelemetry id crc term =>
    exact ⟨ENQ, id, CMD_BYTES_TELEMETRY, crc, term, .inl rfl, by decide, rfl, rfl⟩
  | frameReq id payload crc term =>
    obtain ⟨hle, hne⟩ : payload.length ≤ 255 ∧ payload ≠ CMD_BYTES_TELEMETRY := by
      simpa [Instr.wf] using hwf
    exact ⟨ENQ, id, payload, crc, term, .inl rfl, hle, rfl, by simp [framed, requestRow, hne]⟩
  | frameReplyTelemetry id data crc term =>
    have hdata : data.length = TELEMETRY_DATA_LEN := by simpa [Instr.wf] using hwf
    have hlen' : data.length + 2 = TELEMETRY_LENGTH := by rw [hdata]; rfl
    exact ⟨ACK, id, CMD_BYTES_TELEMETRY ++ data, crc, term, .inr rfl,
      by rw [hlen, hlen']; decide, rfl, by simp [framed, replyRow, hack, hcmd, hlen, hdrop, hlen']⟩
  | frameReplyBadlen id data crc term =>
    obtain ⟨hle, hne⟩ : data.length ≤ 253 ∧ data.length ≠ TELEMETRY_DATA_LEN := by
      simpa [Instr.wf] using hwf
    have hlen' : data.length + 2 ≠ TELEMETRY_LENGTH := by
      simpa [TELEMETRY_LENGTH, TELEMETRY_DATA_LEN] using hne
    exact ⟨ACK, id, CMD_BYTES_TELEMETRY ++ data, crc, term, .inr rfl, by rw [hlen]; omega, rfl,
      by simp [framed, replyRow, hack, hcmd, hlen, hdrop, hlen']⟩
  | frameReplyOther id payload crc term =>
    obtain ⟨hle, hne⟩ : payload.length ≤ 255 ∧ beginsTelemetry payload = false := by
      simpa [Instr.wf] using hwf
    exact ⟨ACK, id, payload, crc, term, .inr rfl, hle, rfl, by simp [framed, replyRow, hack, hne]⟩
  | _ => cases hspace

/-- Settles O4: a frame is read back as the row of its kind byte and PAYLOAD, an operation form by
form. -/
theorem decodeOfEncodeIsTheInstruction : Obligations.DecodeOfEncodeIsTheInstruction := by
  intro i hwf
  cases hspace : i.space with
  | frame =>
    obtain ⟨kind, id, payload, crc, term, hkind, hlen, hencode, hframed⟩ :=
      encode_eq_frameBytes i hwf hspace
    rw [hencode, ← hframed]
    exact decodeFrame_frameBytes kind id payload crc term hkind hlen
  | operation => exact decodeOperation_encode i hspace

/-- Settles O6: four of the words are encodings, read back as any other; no row has the code 0x04. -/
theorem specWordsDecode : Obligations.SpecWordsDecode :=
  ⟨decodeOfEncodeIsTheInstruction (.frameReqTelemetry 1#8 0xFC85#16 0x03#8) rfl,
    decodeOfEncodeIsTheInstruction (.frameReplyOther 1#8 [] 0x91E1#16 0x03#8) rfl,
    decodeOfEncodeIsTheInstruction .run rfl,
    decodeOfEncodeIsTheInstruction (.frByteBody 0x60#8) rfl, rfl⟩

/-! ### Match and mask (R116) -/

theorem be_append_singleton (s : List Byte) (b : Byte) : be (s ++ [b]) = 2 ^ 8 * be s + b.toNat := by
  simp [be]

/-- Masking a big-endian value masks it byte by byte. -/
theorem be_land_be (s m : List Byte) (h : s.length = m.length) :
    be s &&& be m = be (List.zipWith (· &&& ·) s m) := by
  induction s using List.reverseRecOn generalizing m with
  | nil =>
    obtain rfl : m = [] := List.length_eq_zero_iff.1 h.symm
    rfl
  | append_singleton s b ih =>
    obtain rfl | ⟨m, c, rfl⟩ := m.eq_nil_or_concat'
    · simp at h
    have hlen : s.length = m.length := by simpa using h
    rw [List.zipWith_append hlen, List.zipWith_cons_cons, List.zipWith_nil_left]
    simp only [be_append_singleton, ← ih m hlen]
    refine Nat.eq_of_testBit_eq fun k => ?_
    rw [Nat.testBit_and, Nat.testBit_two_pow_mul_add _ b.isLt,
      Nat.testBit_two_pow_mul_add _ c.isLt, Nat.testBit_two_pow_mul_add _ (b &&& c).isLt]
    split <;> simp

/-- Byte sequences of one length are told apart by their values. -/
theorem be_inj (s t : List Byte) (h : s.length = t.length) : be s = be t ↔ s = t := by
  refine ⟨fun hbe => ?_, congrArg be⟩
  induction s using List.reverseRecOn generalizing t with
  | nil => exact (List.length_eq_zero_iff.1 h.symm).symm
  | append_singleton s b ih =>
    obtain rfl | ⟨t, c, rfl⟩ := t.eq_nil_or_concat'
    · simp at h
    rw [be_append_singleton, be_append_singleton] at hbe
    have hb := b.isLt
    have hc := c.isLt
    obtain rfl := ih t (by simpa using h) (by omega)
    obtain rfl : b = c := BitVec.eq_of_toNat_eq (by omega)
    rfl

/-- A row fits when each of the first six bytes, masked, is the pattern's (R116). -/
theorem fits_iff_bytewise (pattern mask s : List Byte) (minL : Nat) (notL : Option Nat)
    (hpattern : pattern.length = 6) (hmask : mask.length = 6) (hs : 6 ≤ s.length) :
    (FrameRow.mk (be pattern) (be mask) minL notL).fits s = true
      ↔ List.zipWith (· &&& ·) (s.take 6) mask = pattern ∧ minL ≤ lengthByte s
        ∧ notL ≠ some (lengthByte s) := by
  have htake : (s.take 6).length = 6 := by simpa using hs
  simp only [FrameRow.fits, Bool.and_eq_true, decide_eq_true_eq, and_assoc]
  rw [be_land_be _ _ (htake.trans hmask.symm), be_inj _ _ (by simp [htake, hmask, hpattern])]

theorem byte_and_ff (b : Byte) : b &&& 0xFF#8 = b := BitVec.and_allOnes

/-- A length byte names its length. -/
theorem lengthByte_eq_iff (n m : Nat) (hn : n ≤ 255) (hm : m ≤ 255) :
    BitVec.ofNat 8 n &&& 0xFF#8 = BitVec.ofNat 8 m ↔ n = m := by
  rw [byte_and_ff, ← BitVec.toNat_inj, BitVec.toNat_ofNat, BitVec.toNat_ofNat]
  omega

/-- A telemetry request's PAYLOAD is the two command bytes and nothing else (R99). -/
theorem eq_cmdBytes_iff (payload : List Byte) :
    payload = CMD_BYTES_TELEMETRY ↔ beginsTelemetry payload = true ∧ payload.length = 2 := by
  simp only [beginsTelemetry, beq_iff_eq]
  refine ⟨fun h => by rw [h]; exact ⟨rfl, rfl⟩, fun ⟨hbegins, hlen⟩ => ?_⟩
  rwa [List.take_of_length_le hlen.le] at hbegins

/-- A row that looks at STX and the kind byte alone. -/
def kindRow (kind : Byte) : FrameRow :=
  ⟨be [STX, kind, 0#8, 0#8, 0#8, 0#8], be [0xFF#8, 0xFF#8, 0#8, 0#8, 0#8, 0#8], 0, none⟩

/-- A row that looks at the telemetry command bytes too, and at the length byte through `lenMask`. -/
def telemetryRow (kind len lenMask : Byte) (notL : Option Nat) : FrameRow :=
  ⟨be [STX, kind, 0#8, len, CMD_TELEMETRY, SUB_TELEMETRY],
    be [0xFF#8, 0xFF#8, 0#8, lenMask, 0xFF#8, 0xFF#8], 2, notL⟩

/-- The five rows of the table, byte by byte. -/
theorem frameRows_eq :
    frameRows = [telemetryRow ENQ 2#8 0xFF#8 none, kindRow ENQ, telemetryRow ACK 121#8 0xFF#8 none,
      telemetryRow ACK 0#8 0#8 (some 121), kindRow ACK] := by decide

/-- R116: a frame's row is the first that fits. -/
theorem frameRowOf_eq_findIdx? (s : List Byte) :
    frameRowOf s = frameRows.findIdx? (·.fits s) := by
  ext k
  simp only [frameRowOf, List.find?_range_eq_some, List.findIdx?_eq_some_iff_getElem]
  constructor
  · rintro ⟨hk, hmem, hbefore⟩
    have hlt := List.mem_range.1 hmem
    refine ⟨hlt, by simpa [hlt] using hk, fun j hj => ?_⟩
    simpa [hj.trans hlt] using hbefore j hj
  · rintro ⟨hlt, hk, hbefore⟩
    refine ⟨by simpa [hlt] using hk, List.mem_range.2 hlt, fun j hj => ?_⟩
    simpa [hj.trans hlt] using hbefore j hj

section Rows

variable (kind id : Byte) (payload : List Byte) (crc : Word16) (term : Byte)

/-- The two rows without command bytes take a frame by its kind byte alone. -/
theorem kindRow_fits_frameBytes (k : Byte) :
    (kindRow k).fits (frameBytes kind id payload crc term) = true ↔ kind = k := by
  have hlen : 6 ≤ (frameBytes kind id payload crc term).length := by
    rw [frameBytes_length]; omega
  rw [kindRow, fits_iff_bytewise _ _ _ _ _ rfl rfl hlen]
  rcases payload with _ | ⟨a, _ | ⟨b, p⟩⟩ <;> simp [frameBytes, byte_and_ff]

/-- The three telemetry rows take a frame by its kind byte, its command bytes and its length byte; of a
PAYLOAD too short for command bytes the row would read the CRC's, and its `minL` keeps it from that. -/
theorem telemetryRow_fits_frameBytes (k len lenMask : Byte) (notL : Option Nat)
    (h : payload.length ≤ 255) :
    (telemetryRow k len lenMask notL).fits (frameBytes kind id payload crc term) = true
      ↔ kind = k ∧ beginsTelemetry payload = true ∧ BitVec.ofNat 8 payload.length &&& lenMask = len
        ∧ notL ≠ some payload.length := by
  have hlen : 6 ≤ (frameBytes kind id payload crc term).length := by
    rw [frameBytes_length]; omega
  rw [telemetryRow, fits_iff_bytewise _ _ _ _ _ rfl rfl hlen, lengthByte_frameBytes _ _ _ _ _ h]
  rcases payload with _ | ⟨a, _ | ⟨b, p⟩⟩
  · simp [beginsTelemetry, CMD_BYTES_TELEMETRY]
  · simp [beginsTelemetry, CMD_BYTES_TELEMETRY]
  · simp [frameBytes, beginsTelemetry, CMD_BYTES_TELEMETRY, byte_and_ff]
    tauto

/-- The first row that fits a frame is that of the instruction the decoder makes of it. -/
theorem frameRowOf_frameBytes (hk : kind = ENQ ∨ kind = ACK) (h : payload.length ≤ 255) :
    frameRowOf (frameBytes kind id payload crc term)
      = (framed kind id payload crc term).frameRow := by
  have hack : ACK ≠ ENQ := by decide
  have hrequest := lengthByte_eq_iff payload.length 2 h (by decide)
  have htelemetry := lengthByte_eq_iff payload.length 121 h (by decide)
  rw [frameRowOf_eq_findIdx?, frameRows_eq]
  simp only [List.findIdx?_cons, List.findIdx?_nil, kindRow_fits_frameBytes,
    telemetryRow_fits_frameBytes _ _ _ _ _ _ _ _ _ h, hrequest, htelemetry]
  obtain rfl | rfl := hk
  · by_cases hp : payload = CMD_BYTES_TELEMETRY
    · have hbegins := (eq_cmdBytes_iff CMD_BYTES_TELEMETRY).1 rfl
      simp [framed, requestRow, hp, hbegins, Instr.frameRow]
    · have hbegins := mt (eq_cmdBytes_iff payload).2 hp
      simp [framed, requestRow, hp, hbegins, Instr.frameRow]
  · by_cases hbegins : beginsTelemetry payload = true
    · by_cases hlen : payload.length = 121
      · simp [framed, replyRow, hack, hbegins, hlen, TELEMETRY_LENGTH, Instr.frameRow]
      · simp [framed, replyRow, hack, hbegins, hlen, Ne.symm hlen, TELEMETRY_LENGTH, Instr.frameRow]
    · simp [framed, replyRow, hack, hbegins, Instr.frameRow]

end Rows

/-- Settles O5: the row is the first that fits the bytes of the frame the instruction is. -/
theorem firstFittingFrameRowIsTheConstructors :
    Obligations.FirstFittingFrameRowIsTheConstructors := by
  intro i hwf hspace
  obtain ⟨kind, id, payload, crc, term, hkind, hlen, hencode, hframed⟩ :=
    encode_eq_frameBytes i hwf hspace
  rw [hencode, ← hframed]
  exact frameRowOf_frameBytes kind id payload crc term hkind hlen

end Sys2Proof

namespace Sys2Proof.Machine

/-! ### Steps -/

/-- What an instruction that was given does: it is executed unless the port refuses it (R281, R288,
R322, R344). -/
theorem perform_eq (s : State) (i : Instr) :
    s.perform i
      = if performer i = .host then exec i s
        else if performer i = .loop then .refused .fatalByHost
        else if s.running = true then
          .refused (if performer i = .bus then .frameInRun else .unitOperation)
        else if performer i = .fr ∨ performer i = .bus ∨ s.fr.phase = .idle then exec i s
        else .refused .readerBusy := by
  unfold State.perform State.portRefusal
  cases performer i with
  | host | loop => rfl
  | fr | bus => cases s.running <;> rfl
  | crc | fv | tc | ps | sa =>
    cases s.running with
    | true => rfl
    | false => by_cases hphase : s.fr.phase = .idle <;> simp [hphase]

/-- Settles O7: the item that is next is fetched and given to the port in the state without it. -/
theorem stepRunsTheDecodedInstruction : Obligations.StepRunsTheDecodedInstruction := by
  refine ⟨fun s i bs rest hgiven => ?_, fun s hinbox => by rw [step, hinbox]⟩
  have hperform : step s = (s.setInbox rest).perform i := by
    obtain ⟨hinbox, hdecode⟩ | ⟨hinbox, hdecode⟩ := hgiven
    · have hfetch : (s.setInbox rest).fetchOperation bs = .instr i := hdecode
      simp only [step, hinbox, stepItem, hfetch]
    · have hfetch : (s.setInbox rest).fetchFrame bs = .instr i := hdecode
      simp only [step, hinbox, stepItem, hfetch]
  rw [hperform]
  exact perform_eq (s.setInbox rest) i

end Sys2Proof.Machine
end

section
/-! The CRC-16 engine (40_crc16.md): what its five operations do to the state, its right-shifting
form, and the laws of `crc16`. -/

namespace Sys2Proof.Machine

/-! ### Reflection (R136) -/

theorem reflect8_getLsbD (b : Byte) (i : Nat) (h : i < 8) :
    (reflect8 b).getLsbD i = b.getLsbD (7 - i) := by
  rw [reflect8, BitVec.getLsbD_reverse, BitVec.getMsbD_eq_getLsbD, decide_eq_true h, Bool.true_and]

theorem reflect16_getLsbD (v : Word16) (i : Nat) (h : i < 16) :
    (reflect16 v).getLsbD i = v.getLsbD (15 - i) := by
  rw [reflect16, BitVec.getLsbD_reverse, BitVec.getMsbD_eq_getLsbD, decide_eq_true h, Bool.true_and]

@[simp] theorem reflect8_reflect8 (b : Byte) : reflect8 (reflect8 b) = b := BitVec.reverse_reverse_eq

@[simp] theorem reflect16_reflect16 (v : Word16) : reflect16 (reflect16 v) = v :=
  BitVec.reverse_reverse_eq

@[simp] theorem reflect8_zero : reflect8 0#8 = 0#8 := by decide

theorem reflect16_xor (v w : Word16) : reflect16 (v ^^^ w) = reflect16 v ^^^ reflect16 w := by
  apply BitVec.eq_of_getLsbD_eq
  intro i hi
  simp only [reflect16, BitVec.getLsbD_reverse, BitVec.getLsbD_xor, BitVec.getMsbD_xor]

theorem reflect16_shiftLeft_one (v : Word16) : reflect16 (v <<< 1) = reflect16 v >>> 1 := by
  apply BitVec.eq_of_getLsbD_eq
  intro i hi
  simp only [reflect16, BitVec.getLsbD_reverse, BitVec.getLsbD_ushiftRight, BitVec.getMsbD_shiftLeft,
    Nat.add_comm]

/-- Settles O13. -/
theorem reflectionsReverseTheBits : Obligations.ReflectionsReverseTheBits :=
  ⟨reflect8_getLsbD, reflect16_getLsbD, reflect8_reflect8, reflect16_reflect16,
    by decide, by decide, by decide, by decide⟩

/-! ### A word as its two bytes (R11) -/

theorem toNat_le16 (lo hi : Byte) : (le16 lo hi).toNat = lo.toNat + 256 * hi.toNat := by
  have hlo : lo.toNat < 2 ^ 8 := lo.isLt
  have hor : hi.toNat <<< 8 ||| lo.toNat = hi.toNat <<< 8 + lo.toNat :=
    (Nat.shiftLeft_add_eq_or_of_lt hlo _).symm
  rw [le16, BitVec.toNat_append, hor, Nat.shiftLeft_eq]
  omega

theorem le16_eq_ofNat (lo hi : Byte) : le16 lo hi = BitVec.ofNat 16 (lo.toNat + 256 * hi.toNat) := by
  rw [← toNat_le16, BitVec.ofNat_toNat, BitVec.setWidth_eq]

theorem le16_xor (a b c d : Byte) : le16 a b ^^^ le16 c d = le16 (a ^^^ c) (b ^^^ d) :=
  BitVec.xor_append

theorem reflect16_le16 (lo hi : Byte) : reflect16 (le16 lo hi) = le16 (reflect8 hi) (reflect8 lo) :=
  BitVec.reverse_append

/-- A byte brought into the low 8 bits. -/
theorem setWidth_eq_le16 (b : Byte) : b.setWidth 16 = le16 b 0#8 := by
  apply BitVec.eq_of_toNat_eq
  rw [toNat_le16, BitVec.toNat_setWidth]
  simp only [BitVec.toNat_ofNat]
  omega

/-- A byte brought into the top 8 bits. -/
theorem setWidth_shiftLeft_eq_le16 (b : Byte) : (b.setWidth 16) <<< 8 = le16 0#8 b := by
  apply BitVec.eq_of_toNat_eq
  rw [toNat_le16, BitVec.toNat_shiftLeft, BitVec.toNat_setWidth, Nat.shiftLeft_eq]
  simp only [BitVec.toNat_ofNat]
  omega

theorem le16_zero_ushiftRight (b : Byte) : le16 0#8 b >>> 8 = le16 b 0#8 := by
  apply BitVec.eq_of_toNat_eq
  rw [BitVec.toNat_ushiftRight, toNat_le16, toNat_le16, Nat.shiftRight_eq_div_pow]
  simp only [BitVec.toNat_ofNat]
  omega

/-! ### The five operations -/

theorem exec_crcReset (s : State) :
    exec .crcReset s = .next ((s.setAcc s.cfg.crc.init).ret .nothing) := rfl

theorem exec_crcByte (s : State) (b : Byte) :
    exec (.crcByte b) s = .next ((s.setAcc (crcByteAcc s.cfg.crc s.crcAcc b)).ret .nothing) := rfl

theorem exec_crcBlock (s : State) (bytes : List Byte) :
    exec (.crcBlock bytes) s
      = .next ((s.setAcc (crcAccOf s.cfg.crc bytes)).ret (.word (crc16 s.cfg.crc bytes))) := rfl

theorem exec_crcValue (s : State) :
    exec .crcValue s = .next (s.ret (.word (crcOut s.cfg.crc s.crcAcc))) := rfl

theorem exec_crcCheck (s : State) (c : List Byte) (len : Nat) (h : len + 7 ≤ c.length) :
    exec (.crcCheck c len) s
      = .next ((s.setAcc (crcAccOf s.cfg.crc (crcRange c len))).ret
          (crcCheckResult s.cfg.crc c len)) :=
  if_pos h

theorem exec_crcCheck_short (s : State) (c : List Byte) (len : Nat) (h : c.length < len + 7) :
    exec (.crcCheck c len) s = .refused .shortSequence :=
  if_neg (Nat.not_le.2 h)

/-- Settles O8. -/
theorem crcResetLoadsTheInitialValue : Obligations.CrcResetLoadsTheInitialValue := exec_crcReset

/-- Settles O10. -/
theorem crcValueReflectsAndXors : Obligations.CrcValueReflectsAndXors := exec_crcValue

/-- The repetition of R132, step by step. -/
theorem crcBit_iterate_eight (poly a : Word16) :
    (crcBit poly)^[8] a
      = crcBit poly (crcBit poly (crcBit poly (crcBit poly (crcBit poly (crcBit poly (crcBit poly
          (crcBit poly a))))))) := rfl

/-- Settles O9. -/
theorem crcByteMakesEightSteps : Obligations.CrcByteMakesEightSteps := by
  intro s b bit d a
  have hbit : crcBit s.cfg.crc.poly = bit := rfl
  have hacc : crcByteAcc s.cfg.crc s.crcAcc b = (crcBit s.cfg.crc.poly)^[8] a := rfl
  rw [exec_crcByte, hacc, crcBit_iterate_eight, hbit]
  rfl

/-- Settles O12. -/
theorem crcCheckComparesAllSixteenBits : Obligations.CrcCheckComparesAllSixteenBits := by
  refine fun s c len => ⟨fun h => ⟨crcAccOf s.cfg.crc (crcRange c len), ?_⟩,
    exec_crcCheck_short s c len⟩
  rw [exec_crcCheck s c len h, crcCheckResult, crcRange_eq, transmittedCrc, le16_eq_ofNat]
  rfl

theorem execAll_cons_next {i : Instr} {s t : State} (is : List Instr) (h : exec i s = .next t) :
    execAll (i :: is) s = execAll is t := by
  simp only [execAll, h]

/-- CRC.BYTE of every byte in order leaves the accumulator folded over them, and nothing else. -/
theorem execAll_crcByte (s : State) (acc : Word16) (bytes : List Byte) (is : List Instr) :
    execAll (bytes.map .crcByte ++ is) ((s.setAcc acc).ret .nothing)
      = execAll is ((s.setAcc (bytes.foldl (crcByteAcc s.cfg.crc) acc)).ret .nothing) := by
  induction bytes generalizing acc with
  | nil => rfl
  | cons b bs ih =>
    rw [List.map_cons, List.cons_append, execAll_cons_next _ (exec_crcByte _ b)]
    exact ih (crcByteAcc s.cfg.crc acc b)

/-- Settles O11: the accumulator CRC.RESET loads is folded over the bytes, and CRC.VALUE reads it. -/
theorem crcBlockIsResetBytesValue : Obligations.CrcBlockIsResetBytesValue := by
  intro s bytes
  refine ⟨_, exec_crcBlock s bytes, ?_, rfl⟩
  rw [List.append_assoc, List.singleton_append, execAll_cons_next _ (exec_crcReset s),
    execAll_crcByte, execAll_cons_next _ (exec_crcValue _)]
  rfl

/-! ### The right-shifting form (R137) -/

/-- The low bit of the reflected accumulator is the bit that leaves the accumulator. -/
theorem reflect16_crcBit (poly a : Word16) :
    reflect16 (crcBit poly a) = crcRightBit poly (reflect16 a) := by
  have hbit : (reflect16 a).getLsbD 0 = a.getLsbD 15 := reflect16_getLsbD a 0 (by omega)
  unfold crcBit crcRightBit
  rw [hbit]
  split
  · rw [reflect16_xor, reflect16_shiftLeft_one]
  · exact reflect16_shiftLeft_one a

theorem reflect16_crcBit_iterate (poly : Word16) (n : Nat) (a : Word16) :
    reflect16 ((crcBit poly)^[n] a) = (crcRightBit poly)^[n] (reflect16 a) :=
  Function.Semiconj.iterate_right (f := reflect16) (reflect16_crcBit poly) n a

/-- A reflected byte that enters the top of the accumulator enters the low end of the register. -/
theorem reflect16_crcByteAcc (p : CrcParams) (hin : p.refin = true) (acc : Word16) (b : Byte) :
    reflect16 (crcByteAcc p acc b) = crcRightByte p.poly (reflect16 acc) b := by
  have hentered : reflect16 ((reflect8 b).setWidth 16 <<< 8) = b.setWidth 16 := by
    rw [setWidth_shiftLeft_eq_le16, reflect16_le16, reflect8_reflect8, reflect8_zero,
      setWidth_eq_le16]
  rw [crcByteAcc, crcRightByte, if_pos hin, reflect16_crcBit_iterate, reflect16_xor, hentered]

theorem crcRightAcc_eq_reflect16 (p : CrcParams) (s : List Byte) (hin : p.refin = true) :
    crcRightAcc p s = reflect16 (crcAccOf p s) :=
  List.foldl_hom reflect16 fun acc b => (reflect16_crcByteAcc p hin acc b).symm

theorem crcRightForm_eq_crc16 (p : CrcParams) (s : List Byte) (hin : p.refin = true)
    (hout : p.refout = true) : crcRightForm p s = crc16 p s := by
  rw [crcRightForm, crcRightAcc_eq_reflect16 p s hin, crc16, crcOut, if_pos hout]

/-- Settles O14. -/
theorem rightShiftingCrcIsTheCrc : Obligations.RightShiftingCrcIsTheCrc := fun p s hin hout =>
  ⟨crcRightForm_eq_crc16 p s hin hout, crcRightAcc_eq_reflect16 p s hin⟩

/-! ### The residue (R139) -/

/-- While the bits that leave are zero, the polynomial does not enter and the steps only shift. -/
theorem crcRightBit_iterate_of_low_zero (poly : Word16) (n : Nat) (r : Word16)
    (h : ∀ i < n, r.getLsbD i = false) : (crcRightBit poly)^[n] r = r >>> n := by
  induction n with
  | zero => exact (BitVec.ushiftRight_zero r).symm
  | succ n ih =>
    have hshift := ih fun i hi => h i (by omega)
    have hlow : (r >>> n).getLsbD 0 = false := by
      rw [BitVec.getLsbD_ushiftRight]
      exact h n (by omega)
    rw [Function.iterate_succ_apply', hshift, crcRightBit, hlow, BitVec.shiftRight_add]
    rfl

theorem crcRightBit_iterate_le16_zero (poly : Word16) (b : Byte) :
    (crcRightBit poly)^[8] (le16 0#8 b) = le16 b 0#8 := by
  rw [crcRightBit_iterate_of_low_zero, le16_zero_ushiftRight]
  intro i hi
  rw [le16, BitVec.getLsbD_append, if_pos hi, BitVec.getLsbD_zero]

/-- A byte equal to the low half of the register cancels it, and the high half moves down. -/
theorem crcRightByte_low (poly : Word16) (lo hi : Byte) :
    crcRightByte poly (le16 lo hi) lo = le16 hi 0#8 := by
  rw [crcRightByte, setWidth_eq_le16, le16_xor, BitVec.xor_self, BitVec.xor_zero,
    crcRightBit_iterate_le16_zero]

/-- Settles O16: each of the two bytes cancels the low half of the register it meets. -/
theorem crcOfAClosedMessageIsZero : Obligations.CrcOfAClosedMessageIsZero := by
  intro p s hin hout hxor
  have hform (m : List Byte) : crc16 p m = crcRightAcc p m := by
    rw [← crcRightForm_eq_crc16 p m hin hout, crcRightForm, hxor, BitVec.xor_zero]
  have hstep (m : List Byte) (b : Byte) :
      crcRightAcc p (m ++ [b]) = crcRightByte p.poly (crcRightAcc p m) b := List.foldl_concat ..
  generalize hv : crc16 p s = v
  have hreg : crcRightAcc p s = le16 (loByte v) (hiByte v) := by
    rw [le16_loByte_hiByte, ← hv, hform]
  calc crc16 p (s ++ [loByte v, hiByte v])
      = crcRightByte p.poly (crcRightByte p.poly (crcRightAcc p s) (loByte v)) (hiByte v) := by
        rw [hform, List.append_cons, hstep, hstep]
    _ = crcRightByte p.poly (le16 (hiByte v) 0#8) (hiByte v) := by rw [hreg, crcRightByte_low]
    _ = 0#16 := crcRightByte_low p.poly (hiByte v) 0#8

/-! ### Linearity (R138) -/

/-- The accumulators of two messages of one length differ by the accumulator of their xor. -/
theorem foldl_crcByteAcc_xor (p : CrcParams) (a b : Word16) (m n : List Byte)
    (h : m.length = n.length) :
    m.foldl (crcByteAcc p) a ^^^ n.foldl (crcByteAcc p) b
      = (xorBytes m n).foldl (crcByteAcc p) (a ^^^ b) := by
  induction m generalizing a b n with
  | nil =>
    obtain rfl := List.length_eq_zero_iff.1 h.symm
    rfl
  | cons x m ih =>
    cases n with
    | nil => cases h
    | cons y n =>
      simp only [xorBytes, List.zipWith_cons_cons, List.foldl_cons, crcByteAcc_xor]
      exact ih _ _ n (Nat.succ.inj h)

/-- The reflection is linear and CRC_XOROUT cancels. -/
theorem crcOut_xor (p : CrcParams) (a b : Word16) :
    crcOut p a ^^^ crcOut p b = if p.refout then reflect16 (a ^^^ b) else a ^^^ b := by
  have hcancel (v w : Word16) : v ^^^ p.xorout ^^^ (w ^^^ p.xorout) = v ^^^ w := by
    rw [BitVec.xor_comm w, BitVec.xor_assoc, ← BitVec.xor_assoc p.xorout, BitVec.xor_self,
      BitVec.zero_xor]
  unfold crcOut
  rw [hcancel]
  split
  · exact (reflect16_xor a b).symm
  · rfl

/-- Settles O15: CRC_INIT cancels in the accumulators and CRC_XOROUT in the values. -/
theorem crcIsLinearInTheMessage : Obligations.CrcIsLinearInTheMessage := by
  intro p m n h
  have hacc : crcAccOf p m ^^^ crcAccOf p n = (xorBytes m n).foldl (crcByteAcc p) 0#16 := by
    rw [crcAccOf, crcAccOf, foldl_crcByteAcc_xor p _ _ m n h, BitVec.xor_self]
  rw [crc16, crc16, crcOut_xor, hacc]
  exact (BitVec.xor_zero).symm

/-! ### Detection (R140) -/

theorem crcBit_iterate_injective (poly : Word16) (hp : poly.getLsbD 0 = true) (n : Nat) :
    Function.Injective (crcBit poly)^[n] := by
  intro a b h
  have hzero : (crcBit poly)^[n] (a ^^^ b) = 0#16 := by
    rw [crcBit_iterate_xor, h, BitVec.xor_self]
  exact BitVec.xor_eq_zero_iff.1 (crcBit_iterate_eq_zero poly _ n hp hzero)

/-- With an odd polynomial different bytes leave different accumulators. -/
theorem crcByteAcc_byte_injective (p : CrcParams) (hp : p.poly.getLsbD 0 = true) (acc : Word16)
    (x y : Byte) (h : crcByteAcc p acc x = crcByteAcc p acc y) : x = y := by
  have hentered := crcBit_iterate_injective p.poly hp 8 h
  rw [BitVec.xor_right_inj, setWidth_shiftLeft_eq_le16, setWidth_shiftLeft_eq_le16] at hentered
  have hbyte := (le16_injective _ _ _ _ hentered).2
  cases hin : p.refin with
  | false => simpa [hin] using hbyte
  | true => simpa [hin] using congrArg reflect8 hbyte

theorem foldl_crcByteAcc_injective (p : CrcParams) (hp : p.poly.getLsbD 0 = true) (s : List Byte) :
    Function.Injective (fun acc => s.foldl (crcByteAcc p) acc) := by
  induction s with
  | nil => exact Function.injective_id
  | cons x s ih => exact fun a b h => crcByteAcc_injective p hp a b x (ih h)

theorem crcOut_injective (p : CrcParams) : Function.Injective (crcOut p) := by
  intro a b h
  have hxor := (BitVec.xor_left_inj _).1 h
  cases hout : p.refout with
  | false => simpa [hout] using hxor
  | true => simpa [hout] using congrArg reflect16 hxor

/-- With an odd polynomial a message with one byte changed has another CRC. -/
theorem crc16_set_ne (p : CrcParams) (hp : p.poly.getLsbD 0 = true) (m : List Byte) (q : Nat)
    (y : Byte) (hq : q < m.length) (hy : y ≠ m[q]) : crc16 p (m.set q y) ≠ crc16 p m := by
  intro heq
  have hset : m.set q y = m.take q ++ y :: m.drop (q + 1) := by
    rw [List.set_eq_take_append_cons_drop, if_pos hq]
  have hm : m = m.take q ++ m[q] :: m.drop (q + 1) := by
    rw [List.getElem_cons_drop, List.take_append_drop]
  have hacc : crcAccOf p (m.set q y) = crcAccOf p m := crcOut_injective p heq
  rw [hset] at hacc
  conv at hacc => rhs; rw [hm]
  simp only [crcAccOf, List.foldl_append, List.foldl_cons] at hacc
  exact hy (crcByteAcc_byte_injective p hp _ _ _ (foldl_crcByteAcc_injective p hp _ hacc))

theorem xor_bit_ne (b : Byte) (k : Nat) (hk : k < 8) : b ^^^ (1#8 <<< k) ≠ b := by
  intro h
  have hbit := congrArg (fun v => BitVec.getLsbD v k) h
  simp [hk] at hbit

/-- Settles O17: a flipped bit changes its byte, and a changed byte changes the CRC. -/
theorem flippedBitChangesTheCrc : Obligations.FlippedBitChangesTheCrc := by
  intro p m q k hp hq hk
  refine crc16_set_ne p hp m q _ hq ?_
  rw [byteAt, List.getD_eq_getElem _ _ hq]
  exact xor_bit_ne m[q] k hk

end Sys2Proof.Machine
end

section
/-! The frame reader (41_frame_reader.md): what FR.BYTE does in each phase, said once for its rows at
the operation port and for the bytes of a reader call; what each operation does to the state; and the
run of a reader call over a whole frame. -/

namespace Sys2Proof.Machine

/-! ### FR.BYTE by phase (R160) -/

section
variable {r : Reader}

theorem readerByte_of_selectRow {row : FrRow} (b : Byte) (h : selectRow r = some row) :
    readerByte b r = rowByte row b r := by
  rw [readerByte, h]

theorem selectRow_hunt (hp : r.phase = .hunt) : selectRow r = some .hunt := by simp [selectRow, hp]

theorem selectRow_kind (hp : r.phase = .kind) : selectRow r = some .kind := by simp [selectRow, hp]

theorem selectRow_hdr (hp : r.phase = .hdr) : selectRow r = some .hdr := by simp [selectRow, hp]

theorem selectRow_body (hp : r.phase = .body) (hn : 1 < r.need) : selectRow r = some .body := by
  simp [selectRow, hp, hn]

theorem selectRow_last (hp : r.phase = .body) (hn : r.need = 1) : selectRow r = some .last := by
  simp [selectRow, hp, hn]

theorem phase_ne_idle_of_selectRow {row : FrRow} (h : selectRow r = some row) : r.phase ≠ .idle := by
  intro hp
  simp [selectRow, hp] at h

theorem readerByte_hunt (b : Byte) (hp : r.phase = .hunt) :
    readerByte b r
      = (if b = STX then { r with consumed := true, cb := [STX], phase := .kind }
          else { r with consumed := true }, none) := by
  rw [readerByte_of_selectRow b (selectRow_hunt hp), rowByte, byteHunt]
  split <;> rfl

theorem readerByte_kind (b : Byte) (hp : r.phase = .kind) :
    readerByte b r
      = (if b = ENQ ∨ b = ACK then ⟨.hdr, r.cb ++ [b], 2, true⟩
          else { r with consumed := true, cb := [], phase := .hunt }, none) := by
  rw [readerByte_of_selectRow b (selectRow_kind hp), rowByte, byteKind, pushByte_eq]
  split <;> rfl

theorem readerByte_hdr (b : Byte) (hp : r.phase = .hdr) :
    readerByte b r
      = (if r.need - 1 = 0 then ⟨.body, r.cb ++ [b], lengthByte (r.cb ++ [b]) + 3, true⟩
          else ⟨.hdr, r.cb ++ [b], r.need - 1, true⟩, none) := by
  simp only [readerByte_of_selectRow b (selectRow_hdr hp), rowByte, byteHdr, pushByte_eq, hp]
  split <;> rfl

theorem readerByte_body (b : Byte) (hp : r.phase = .body) (hn : 1 < r.need) :
    readerByte b r = (⟨.body, r.cb ++ [b], r.need - 1, true⟩, none) := by
  rw [readerByte_of_selectRow b (selectRow_body hp hn), rowByte, byteBody, pushByte_eq, hp]

theorem readerByte_last (b : Byte) (hp : r.phase = .body) (hn : r.need = 1) :
    readerByte b r = (⟨.idle, [], 0, true⟩, some (.candidate (r.cb ++ [b]))) := by
  rw [readerByte_of_selectRow b (selectRow_last hp hn), rowByte, byteLast, pushByte_eq]

end

/-! ### The operations -/

theorem exec_frByteRow (row : FrRow) (b : Byte) (s : State) :
    exec (frByteRow row b) s = frByteOp row (rowByte row b) s := by
  cases row <;> rfl

/-- The row the registers select takes its byte as FR.BYTE does (30_encoding.md R116). -/
theorem exec_frByteRow_selected {row : FrRow} (b : Byte) {s : State}
    (h : selectRow s.fr = some row) :
    exec (frByteRow row b) s
      = .next ((s.setFr (readerByte b s.fr).1).ret (readResult (readerByte b s.fr).2)) := by
  rw [exec_frByteRow, frByteOp, if_neg (phase_ne_idle_of_selectRow h), if_pos h,
    readerByte_of_selectRow b h]

theorem exec_frByteRow_idle (row : FrRow) (b : Byte) {s : State} (h : s.fr.phase = .idle) :
    exec (frByteRow row b) s = .refused .noReaderCall := by
  rw [exec_frByteRow, frByteOp, if_pos h]

theorem exec_frTimeout_idle {s : State} (h : s.fr.phase = .idle) :
    exec .frTimeout s = .refused .noReaderCall :=
  if_pos h

theorem exec_frFault_idle {s : State} (h : s.fr.phase = .idle) :
    exec .frFault s = .refused .noReaderCall :=
  if_pos h

theorem exec_frTimeout {s : State} (h : s.fr.phase ≠ .idle) :
    exec .frTimeout s
      = .next ((s.setFr (readerTimeout s.fr).1).ret (.reader (readerTimeout s.fr).2)) :=
  if_neg h

theorem exec_frFault {s : State} (h : s.fr.phase ≠ .idle) :
    exec .frFault s = .next ((s.setFr (readerFault s.fr).1).ret (.reader (readerFault s.fr).2)) :=
  if_neg h

/-- Settles O18. -/
theorem frStartBeginsAReaderCall : Obligations.FrStartBeginsAReaderCall :=
  fun _ => ⟨fun hidle => if_pos hidle, fun hbusy => if_neg hbusy⟩

/-- Settles O19. -/
theorem frByteHuntsForStx : Obligations.FrByteHuntsForStx := by
  intro s b hp
  have hexec := exec_frByteRow_selected b (selectRow_hunt hp)
  rwa [readerByte_hunt b hp] at hexec

/-- Settles O20. -/
theorem frByteTakesAKindByte : Obligations.FrByteTakesAKindByte := by
  intro s b hp
  have hexec := exec_frByteRow_selected b (selectRow_kind hp)
  rwa [readerByte_kind b hp] at hexec

/-- Settles O21. -/
theorem frByteTakesTheHeader : Obligations.FrByteTakesTheHeader := by
  intro s b hp
  have hexec := exec_frByteRow_selected b (selectRow_hdr hp)
  rwa [readerByte_hdr b hp] at hexec

/-- Settles O22. -/
theorem frByteTakesTheBody : Obligations.FrByteTakesTheBody := by
  intro s b hp hn
  have hexec := exec_frByteRow_selected b (selectRow_body hp hn)
  rwa [readerByte_body b hp hn] at hexec

/-- What FR.BYTE hands over in registers that belong together is a candidate in the sense of R159. -/
theorem candidateOk_of_readerByte {r : Reader} {b : Byte} {c : List Byte} (hr : readerOk r = true)
    (hp : r.phase ≠ .idle) (hc : (readerByte b r).2 = some (.candidate c)) : candidateOk c := by
  obtain ⟨-, -, ⟨hnone, -⟩ | ⟨c', hc', hok, -⟩⟩ := readerByte_spec b r hr hp
  · simp [hnone] at hc
  · obtain rfl : c' = c := by simpa [hc'] using hc
    exact hok

/-- A candidate in the figures of R159: it is a frame of R90, and a frame's PAYLOAD has at most 255
bytes. -/
theorem bounds_of_candidateOk {f : List Byte} (h : candidateOk f) :
    f[0]? = some STX ∧ (f[1]? = some ENQ ∨ f[1]? = some ACK)
      ∧ f.length = lengthByte f + 7 ∧ 7 ≤ f.length ∧ f.length ≤ 262 := by
  have hlen : f.length = lengthByte f + 7 := h.1
  obtain ⟨kind, id, payload, crc, term, hkind, hpayload, rfl⟩ := exists_frameBytes_of_candidateOk f h
  refine ⟨rfl, hkind.imp (congrArg some) (congrArg some), hlen, ?_, ?_⟩ <;>
    · rw [frameBytes_length]
      omega

/-- Settles O23. -/
theorem frByteReturnsTheCandidate : Obligations.FrByteReturnsTheCandidate := by
  intro s b hp hn f
  have hbyte := readerByte_last b hp hn
  have hsel := selectRow_last hp hn
  have hexec := exec_frByteRow_selected b hsel
  rw [hbyte] at hexec
  exact ⟨hexec, fun hr => bounds_of_candidateOk
    (candidateOk_of_readerByte hr (phase_ne_idle_of_selectRow hsel) (congrArg Prod.snd hbyte))⟩

/-- Settles O24. -/
theorem timeoutAndFaultEndTheCall : Obligations.TimeoutAndFaultEndTheCall :=
  fun _ hp => ⟨exec_frTimeout hp, exec_frFault hp⟩

/-- Settles O25. -/
theorem noEventIsTakenInIdle : Obligations.NoEventIsTakenInIdle := by
  intro s b hidle i hi
  simp only [List.mem_cons, List.not_mem_nil, or_false] at hi
  obtain rfl | rfl | rfl | rfl | rfl | rfl | rfl := hi
  · exact exec_frByteRow_idle .hunt b hidle
  · exact exec_frByteRow_idle .kind b hidle
  · exact exec_frByteRow_idle .hdr b hidle
  · exact exec_frByteRow_idle .body b hidle
  · exact exec_frByteRow_idle .last b hidle
  · exact exec_frTimeout_idle hidle
  · exact exec_frFault_idle hidle

/-! ### A frame in a reader call (R162) -/

/-- A byte that ends no call leaves the rest of the events to the registers after it. -/
theorem readCall_byte_next {b : Byte} {r r' : Reader} (es : List InEvent)
    (h : readerByte b r = (r', none)) : readCall (.byte b :: es) r = readCall es r' := by
  simp only [readCall, h]

theorem readCall_byte_result {b : Byte} {r r' : Reader} {res : ReadResult} (es : List InEvent)
    (h : readerByte b r = (r', some res)) : readCall (.byte b :: es) r = (res, es, r') := by
  simp only [readCall, h]

/-- Bytes that are not STX are discarded in HUNT; they only leave their mark in `fr.consumed`. -/
theorem readCall_noise (noise : List Byte) (es : List InEvent) (consumed : Bool)
    (h : ∀ b ∈ noise, b ≠ STX) :
    readCall (noise.map .byte ++ es) ⟨.hunt, [], 0, consumed⟩
      = readCall es ⟨.hunt, [], 0, consumed || !noise.isEmpty⟩ := by
  induction noise generalizing consumed with
  | nil => simp
  | cons b bs ih =>
    obtain ⟨hb, hbs⟩ := List.forall_mem_cons.1 h
    have hbyte : readerByte b ⟨.hunt, [], 0, consumed⟩ = (⟨.hunt, [], 0, true⟩, none) := by
      rw [readerByte_hunt b rfl, if_neg hb]
    rw [List.map_cons, List.cons_append, readCall_byte_next _ hbyte, ih true hbs]
    simp

/-- The four bytes of a header take the reader from HUNT to BODY, where the PAYLOAD its length byte
announces and the three bytes of the trailer are still needed. -/
theorem readCall_header (kind id len : Byte) (es : List InEvent) (consumed : Bool)
    (hkind : kind = ENQ ∨ kind = ACK) :
    readCall ([STX, kind, id, len].map .byte ++ es) ⟨.hunt, [], 0, consumed⟩
      = readCall es ⟨.body, [STX, kind, id, len], len.toNat + 3, true⟩ := by
  have hstx : readerByte STX ⟨.hunt, [], 0, consumed⟩ = (⟨.kind, [STX], 0, true⟩, none) :=
    readerByte_hunt STX rfl
  have hkindByte : readerByte kind ⟨.kind, [STX], 0, true⟩ = (⟨.hdr, [STX, kind], 2, true⟩, none) := by
    rw [readerByte_kind kind rfl, if_pos hkind]
    rfl
  have hid : readerByte id ⟨.hdr, [STX, kind], 2, true⟩ = (⟨.hdr, [STX, kind, id], 1, true⟩, none) :=
    readerByte_hdr id rfl
  have hlen : readerByte len ⟨.hdr, [STX, kind, id], 1, true⟩
      = (⟨.body, [STX, kind, id, len], len.toNat + 3, true⟩, none) :=
    readerByte_hdr len rfl
  calc readCall ([STX, kind, id, len].map InEvent.byte ++ es) ⟨.hunt, [], 0, consumed⟩
      = readCall ([kind, id, len].map InEvent.byte ++ es) ⟨.kind, [STX], 0, true⟩ :=
        readCall_byte_next _ hstx
    _ = readCall ([id, len].map InEvent.byte ++ es) ⟨.hdr, [STX, kind], 2, true⟩ :=
        readCall_byte_next _ hkindByte
    _ = readCall ([len].map InEvent.byte ++ es) ⟨.hdr, [STX, kind, id], 1, true⟩ :=
        readCall_byte_next _ hid
    _ = readCall es ⟨.body, [STX, kind, id, len], len.toNat + 3, true⟩ :=
        readCall_byte_next _ hlen

/-- In BODY the bytes still needed are appended as they are, and the last of them ends the call. -/
theorem readCall_body (cb bytes : List Byte) (last : Byte) (es : List InEvent) :
    readCall ((bytes ++ [last]).map .byte ++ es) ⟨.body, cb, bytes.length + 1, true⟩
      = (.candidate (cb ++ (bytes ++ [last])), es, ⟨.idle, [], 0, true⟩) := by
  induction bytes generalizing cb with
  | nil => exact readCall_byte_result es (readerByte_last last rfl rfl)
  | cons b bs ih =>
    have hbyte : readerByte b ⟨.body, cb, (b :: bs).length + 1, true⟩
        = (⟨.body, cb ++ [b], bs.length + 1, true⟩, none) :=
      readerByte_body b rfl (by simp)
    rw [List.cons_append, List.map_cons, List.cons_append, readCall_byte_next _ hbyte, ih,
      List.append_assoc, List.singleton_append]

/-- A reader in HUNT returns a frame that begins with the next event, whole. -/
theorem readCall_frame (kind id lo hi term : Byte) (payload : List Byte) (es : List InEvent)
    (consumed : Bool) (hkind : kind = ENQ ∨ kind = ACK) (hpayload : payload.length ≤ 255) :
    let f := [STX, kind, id, BitVec.ofNat 8 payload.length] ++ payload ++ [lo, hi, term]
    readCall (f.map .byte ++ es) ⟨.hunt, [], 0, consumed⟩
      = (.candidate f, es, ⟨.idle, [], 0, true⟩) := by
  intro f
  have hneed : (BitVec.ofNat 8 payload.length).toNat + 3 = (payload ++ [lo, hi]).length + 1 := by
    simp
    omega
  have hf : f = [STX, kind, id, BitVec.ofNat 8 payload.length] ++ ((payload ++ [lo, hi]) ++ [term]) := by
    simp [f]
  rw [hf, List.map_append, List.append_assoc, readCall_header _ _ _ _ _ hkind, hneed, readCall_body]

/-- Settles O26: the noise is discarded, and the frame behind it is returned. -/
theorem frameBehindNoiseIsReturnedWhole : Obligations.FrameBehindNoiseIsReturnedWhole := by
  intro noise payload kind id lo hi term rest hnoise hkind hpayload f
  rw [List.map_append, List.append_assoc, readerStart, readCall_noise noise _ false hnoise]
  exact readCall_frame kind id lo hi term payload rest _ hkind hpayload

end Sys2Proof.Machine
end

section
/-! The validator (42_frame_validator.md): its checks as bytes of the sequence and the first that fails;
the frames it finds valid and invalid, and what the block does with them; and what one flipped bit does
to each check. -/

namespace Sys2Proof.Machine

/-! ### The checks, byte by byte (R181 to R185) -/

section
variable {f : List Byte}

/-- A byte of a sequence, with and without the length test in front of it (20_memory.md R74). -/
theorem getElem?_eq_some_iff_byteAt (i : Nat) (b : Byte) :
    f[i]? = some b ↔ i < f.length ∧ byteAt f i = b := by
  by_cases h : i < f.length <;> simp [byteAt, h]

theorem check1_iff : check1 f = true ↔ f[0]? = some STX := by
  rw [getElem?_eq_some_iff_byteAt, check1, Bool.and_eq_true, decide_eq_true_iff, beq_iff_eq]
  rfl

theorem check2_iff : check2 f = true ↔ f[1]? = some ENQ ∨ f[1]? = some ACK := by
  rw [getElem?_eq_some_iff_byteAt, getElem?_eq_some_iff_byteAt, ← and_or_left, check2,
    Bool.and_eq_true, Bool.or_eq_true, decide_eq_true_iff, beq_iff_eq, beq_iff_eq]
  rfl

theorem check3_iff : check3 f = true ↔ 4 ≤ f.length ∧ lengthByte f + 7 ≤ f.length := by
  rw [check3, Bool.and_eq_true, decide_eq_true_iff, decide_eq_true_iff]

theorem check4_iff (h3 : check3 f = true) :
    check4 f = true ↔ f[6 + lengthByte f]? = some ETX := by
  have hin : 6 + lengthByte f < f.length := by
    have hlen := (check3_iff.1 h3).2
    omega
  rw [getElem?_eq_some_iff_byteAt, and_iff_right hin, check4, beq_iff_eq]

/-- R185: the CRC range and the two CRC bytes, compared as words. -/
theorem check5_iff (p : CrcParams) :
    check5 p f = true ↔ computedCrc p f = transmittedCrc f (lengthByte f) := beq_iff_eq

/-! ### The first check that fails (R180, R187) -/

variable {p : CrcParams}

theorem validate_badStart (h1 : check1 f = false) : validate p f = .invalid .badStart := by
  simp [validate, h1]

theorem validate_badKind (h1 : check1 f = true) (h2 : check2 f = false) :
    validate p f = .invalid .badKind := by
  simp [validate, h1, h2]

theorem validate_incomplete (h1 : check1 f = true) (h2 : check2 f = true) (h3 : check3 f = false) :
    validate p f = .invalid .incomplete := by
  simp [validate, h1, h2, h3]

theorem validate_badTerminator (h1 : check1 f = true) (h2 : check2 f = true) (h3 : check3 f = true)
    (h4 : check4 f = false) : validate p f = .invalid .badTerminator := by
  simp [validate, h1, h2, h3, h4]

theorem validate_crcMismatch (h1 : check1 f = true) (h2 : check2 f = true) (h3 : check3 f = true)
    (h4 : check4 f = true) (h5 : check5 p f = false) :
    validate p f
      = .invalid (.crcMismatch (computedCrc p f) (transmittedCrc f (lengthByte f))) := by
  simp [validate, h1, h2, h3, h4, h5]

end

/-- The verdict as one chain over the bytes of the sequence (R180 to R187). -/
theorem validate_eq_first_failure (p : CrcParams) (f : List Byte) :
    validate p f
      = if f[0]? ≠ some STX then .invalid .badStart
        else if f[1]? ≠ some ENQ ∧ f[1]? ≠ some ACK then .invalid .badKind
        else if f.length < 4 ∨ f.length < lengthByte f + 7 then .invalid .incomplete
        else if f[6 + lengthByte f]? ≠ some ETX then .invalid .badTerminator
        else if computedCrc p f ≠ transmittedCrc f (lengthByte f) then
          .invalid (.crcMismatch (computedCrc p f) (transmittedCrc f (lengthByte f)))
        else if f[1]? = some ENQ then .validRequest (header f)
        else .validReply (header f) := by
  have fails {b : Bool} {P : Prop} (h : b = true ↔ P) : (!b) = true ↔ ¬P := by
    rw [← h, Bool.not_eq_true', Bool.not_eq_true]
  have kindFails : (!check2 f) = true ↔ f[1]? ≠ some ENQ ∧ f[1]? ≠ some ACK :=
    (fails check2_iff).trans not_or
  have lengthFails : (!check3 f) = true ↔ f.length < 4 ∨ f.length < lengthByte f + 7 := by
    rw [fails check3_iff]
    omega
  refine if_ctx_congr (fails check1_iff) (fun _ => rfl) fun _ => ?_
  refine if_ctx_congr kindFails (fun _ => rfl) fun _ => ?_
  refine if_ctx_congr lengthFails (fun _ => rfl) fun hlen => ?_
  have h3 : check3 f = true := check3_iff.2 (by omega)
  refine if_ctx_congr (fails (check4_iff h3)) (fun _ => rfl) fun _ => ?_
  refine if_ctx_congr (fails (check5_iff p)) (fun _ => rfl) fun _ => ?_
  refine if_ctx_congr ?_ (fun _ => rfl) fun _ => rfl
  rw [getElem?_eq_some_iff_byteAt, and_iff_right (by omega)]

/-! ### The operations -/

theorem exec_fvValidate (s : State) (c : List Byte) :
    exec (.fvValidate c) s
      = .next ((s.setAcc (validateAcc s.cfg.crc c s.crcAcc)).ret (.verdict (validate s.cfg.crc c))) :=
  rfl

theorem exec_fvHeader (s : State) (c : List Byte) (h : check3 c = true) :
    exec (.fvHeader c) s = .next (s.ret (.header (header c))) :=
  if_pos h

theorem exec_fvHeader_short (s : State) (c : List Byte) (h : ¬check3 c = true) :
    exec (.fvHeader c) s = .refused .noHeader :=
  if_neg h

/-- Settles O28: the CRC range and the transmitted CRC are the statement's bytes. -/
theorem validateGivesTheFirstFailure : Obligations.ValidateGivesTheFirstFailure := by
  intro s f len computed transmitted
  have hcomputed : computedCrc s.cfg.crc f = computed := by
    rw [computedCrc, crcRange_eq]
    rfl
  have htransmitted : transmittedCrc f len = transmitted := le16_eq_ofNat _ _
  refine ⟨validateAcc s.cfg.crc f s.crcAcc, ?_⟩
  rw [exec_fvValidate, validate_eq_first_failure, show lengthByte f = len from rfl, hcomputed,
    htransmitted]
  rfl

/-- Settles O29. -/
theorem headerHoldsItsNineFields : Obligations.HeaderHoldsItsNineFields := by
  intro s c len
  refine ⟨fun h => ?_, fun h => exec_fvHeader_short s c (mt check3_iff.1 h)⟩
  have hdata : (if 2 ≤ len then len - 2 else 0) = len - 2 := by
    split <;> omega
  rw [exec_fvHeader s c (check3_iff.2 h), hdata]
  rfl

/-! ### Frames that are valid (R192) -/

theorem slice_payload_frameBytes (kind id : Byte) (payload : List Byte) (crc : Word16) (term : Byte) :
    slice (frameBytes kind id payload crc term) 4 (4 + payload.length) = payload := by
  rw [slice, List.drop_take]
  simp [frameBytes]

/-- A request closed by its own CRC and terminator passes every check. -/
theorem validate_request (p : CrcParams) (id : Byte) (payload : List Byte) (h : payload.length ≤ 255) :
    let c := frameBytes ENQ id payload (frameCrc p ENQ id payload) ETX
    validate p c = .validRequest (header c) := by
  simp [validate_frameBytes _ _ _ _ _ p (.inl rfl) h]

/-- Settles O30: what the encoder builds is a frame of R90 closed by its own CRC, and its fields are
read back. -/
theorem encodedRequestsValidate : Obligations.EncodedRequestsValidate := by
  intro p id cmd _ hcmd
  rw [encodeFrame_eq_frameBytes]
  refine ⟨_, validate_request p id cmd hcmd, ?_⟩
  rw [header_frameBytes _ _ _ _ _ hcmd]
  exact ⟨rfl, rfl, slice_payload_frameBytes ENQ id cmd _ ETX⟩

/-! ### Frames that are invalid (R190) -/

/-- Of a whole frame only the terminator and the CRC are left to fail. -/
theorem reason_of_invalid_frameBytes {p : CrcParams} {kind id : Byte} {payload : List Byte}
    {crc : Word16} {term : Byte} {reason : Reason} (hkind : kind = ENQ ∨ kind = ACK)
    (hpayload : payload.length ≤ 255)
    (h : validate p (frameBytes kind id payload crc term) = .invalid reason) :
    reason = .badTerminator ∨ ∃ x y, reason = .crcMismatch x y := by
  rw [validate_frameBytes _ _ _ _ _ p hkind hpayload] at h
  split at h
  · exact .inl (Verdict.invalid.inj h).symm
  split at h
  · exact .inr ⟨_, _, (Verdict.invalid.inj h).symm⟩
  split at h <;> cases h

/-- Settles O27: a candidate of the reader is a whole frame. -/
theorem candidatesFailOnlyByTerminatorOrCrc : Obligations.CandidatesFailOnlyByTerminatorOrCrc := by
  intro events c p reason hcall
  obtain ⟨-, -, -, hcandidate⟩ := readCall_spec events readerStart readerOk_readerStart (by decide)
  have hok : candidateOk c := hcandidate c hcall
  refine ⟨hok.1, ?_⟩
  obtain ⟨kind, id, payload, crc, term, hkind, hpayload, rfl⟩ := exists_frameBytes_of_candidateOk c hok
  exact reason_of_invalid_frameBytes hkind hpayload

/-! ### Frames in the loop's hand (R285) -/

/-- Every frame row is one gate, one stamp and one validation of the frame's own bytes; the rows differ
in what they do with a valid frame. -/
theorem exec_frame (i : Instr) (s : State) (hspace : i.space = .frame) :
    ∃ k : State → Header → State,
      exec i s
        = s.inLoop (valuesOk s.cfg s.devs) (fun s => (s.onValid (encode i) k).ret .nothing) := by
  cases i with
  | frameReqTelemetry | frameReq | frameReplyTelemetry | frameReplyBadlen | frameReplyOther =>
    exact ⟨_, rfl⟩
  | _ => cases hspace

/-- An invalid frame is dropped with its status, whatever its row does with a valid one (R187). -/
theorem onValid_invalid {s : State} {c : List Byte} {reason : Reason} (k : State → Header → State)
    (h : validate s.cfg.crc c = .invalid reason) :
    s.onValid c k
      = (s.stampTraffic.setAcc (validateAcc s.cfg.crc c s.crcAcc)).fail (reasonStatus reason) := by
  simp only [State.onValid, show s.stampTraffic.cfg = s.cfg from rfl, h]
  rfl

/-- A valid request is handed to the row's action with its header (R186). -/
theorem onValid_validRequest {s : State} {c : List Byte} {hdr : Header} (k : State → Header → State)
    (h : validate s.cfg.crc c = .validRequest hdr) :
    s.onValid c k = k (s.stampTraffic.setAcc (validateAcc s.cfg.crc c s.crcAcc)) hdr := by
  simp only [State.onValid, show s.stampTraffic.cfg = s.cfg from rfl, h]
  rfl

/-- Settles O48: the bytes of a frame instruction are a whole frame, and an invalid frame does not
reach what its row does. -/
theorem damagedFramesAreDiscarded : Obligations.DamagedFramesAreDiscarded := by
  intro s i reason hreceive hwf hspace hinvalid
  constructor
  · obtain ⟨kind, id, payload, crc, term, hkind, hpayload, hencode, -⟩ :=
      encode_eq_frameBytes i hwf hspace
    rw [hencode] at hinvalid
    exact reason_of_invalid_frameBytes hkind hpayload hinvalid
  · obtain ⟨k, hexec⟩ := exec_frame i s hspace
    refine ⟨validateAcc s.cfg.crc (encode i) s.crcAcc, ?_⟩
    rw [hexec, inLoop_of_canReceive s _ hreceive, onValid_invalid k hinvalid]
    rfl

/-- FRAME.REQ.TELEMETRY is handled as FRAME.REQ (R227). -/
theorem exec_frameReqTelemetry (id : Byte) (crc : Word16) (term : Byte) (s : State) :
    exec (.frameReqTelemetry id crc term) s = exec (.frameReq id CMD_BYTES_TELEMETRY crc term) s :=
  rfl

theorem exec_frameReq (id : Byte) (payload : List Byte) (crc : Word16) (term : Byte) (s : State) :
    exec (.frameReq id payload crc term) s
      = s.inLoop (valuesOk s.cfg s.devs) (fun s =>
          (s.onValid (frameBytes ENQ id payload crc term)
            (fun s hdr => s.emit [.status (.validRequest hdr.deviceId)])).ret .nothing) :=
  rfl

/-- Settles O45: both rows are FRAME.REQ with a PAYLOAD, which reports the request and nothing more. -/
theorem validRequestsAreReportedAndIgnored : Obligations.ValidRequestsAreReportedAndIgnored := by
  intro s id payload i hreceive hpayload hrow
  have hexec : exec i s = exec (.frameReq id payload (frameCrc s.cfg.crc ENQ id payload) ETX) s := by
    obtain rfl | ⟨rfl, rfl⟩ := hrow
    · rfl
    · exact exec_frameReqTelemetry id _ ETX s
  refine ⟨validateAcc s.cfg.crc
    (frameBytes ENQ id payload (frameCrc s.cfg.crc ENQ id payload) ETX) s.crcAcc, ?_⟩
  rw [hexec, exec_frameReq, inLoop_of_canReceive s _ hreceive,
    onValid_validRequest _ (validate_request s.cfg.crc id payload hpayload)]
  rfl

/-! ### One flipped bit (R191) -/

section Flip
variable {f : List Byte} {q k : Nat}

@[simp] theorem flipBit_length : (flipBit f q k).length = f.length := by simp [flipBit]

theorem byteAt_flipBit_self (hq : q < f.length) :
    byteAt (flipBit f q k) q = byteAt f q ^^^ (1#8 <<< k) := by
  simp [byteAt, flipBit, hq]

theorem byteAt_flipBit_ne {i : Nat} (h : i ≠ q) : byteAt (flipBit f q k) i = byteAt f i := by
  simp [byteAt, flipBit, List.getElem?_set_ne h.symm]

theorem byteAt_flipBit_self_ne (hq : q < f.length) (hk : k < 8) :
    byteAt (flipBit f q k) q ≠ byteAt f q := by
  rw [byteAt_flipBit_self hq]
  exact xor_bit_ne _ k hk

theorem lengthByte_flipBit (h : q ≠ 3) : lengthByte (flipBit f q k) = lengthByte f :=
  congrArg BitVec.toNat (byteAt_flipBit_ne h.symm)

/-! What a flipped bit leaves of each check. -/

theorem check1_flipBit (h : q ≠ 0) : check1 (flipBit f q k) = check1 f := by
  rw [check1, check1, flipBit_length, byteAt_flipBit_ne h.symm]

theorem check2_flipBit (h : q ≠ 1) : check2 (flipBit f q k) = check2 f := by
  rw [check2, check2, flipBit_length, byteAt_flipBit_ne h.symm]

theorem check3_flipBit (h : q ≠ 3) : check3 (flipBit f q k) = check3 f := by
  rw [check3, check3, flipBit_length, lengthByte_flipBit h]

theorem check4_flipBit (h3 : q ≠ 3) (hterm : q ≠ 6 + lengthByte f) :
    check4 (flipBit f q k) = check4 f := by
  rw [check4, check4, lengthByte_flipBit h3, byteAt_flipBit_ne hterm.symm]

/-! The check that fails at each offset. -/

/-- A flipped bit of the control byte fails check 1. -/
theorem check1_flipBit_start (hq : 0 < f.length) (hk : k < 8) (h1 : check1 f = true) :
    check1 (flipBit f 0 k) = false := by
  rw [← Bool.not_eq_true, check1_iff, getElem?_eq_some_iff_byteAt]
  rintro ⟨-, hstx⟩
  obtain ⟨-, hstx'⟩ := (getElem?_eq_some_iff_byteAt 0 STX).1 (check1_iff.1 h1)
  exact byteAt_flipBit_self_ne hq hk (hstx.trans hstx'.symm)

/-- ENQ and ACK differ in two bits. -/
theorem kind_xor_bit_ne (kind : Byte) (hkind : kind = ENQ ∨ kind = ACK) (hk : k < 8) :
    kind ^^^ (1#8 <<< k) ≠ ENQ ∧ kind ^^^ (1#8 <<< k) ≠ ACK := by
  have hbits : ∀ k < 8, ∀ kind ∈ [ENQ, ACK],
      kind ^^^ (1#8 <<< k) ≠ ENQ ∧ kind ^^^ (1#8 <<< k) ≠ ACK := by decide
  exact hbits k hk kind (by simpa using hkind)

/-- A flipped bit of the kind byte fails check 2. -/
theorem check2_flipBit_kind (hk : k < 8) (h2 : check2 f = true) : check2 (flipBit f 1 k) = false := by
  rw [check2_iff] at h2
  rw [← Bool.not_eq_true, check2_iff]
  simp only [getElem?_eq_some_iff_byteAt, ← and_or_left] at h2 ⊢
  obtain ⟨hq, hkind⟩ := h2
  rw [byteAt_flipBit_self hq]
  obtain ⟨henq, hack⟩ := kind_xor_bit_ne (byteAt f 1) hkind hk
  rintro ⟨-, h | h⟩
  · exact henq h
  · exact hack h

/-- A flipped bit of the last byte fails check 4. -/
theorem check4_flipBit_terminator (hq : 6 + lengthByte f < f.length) (hk : k < 8)
    (h4 : check4 f = true) : check4 (flipBit f (6 + lengthByte f) k) = false := by
  rw [check4, beq_iff_eq] at h4
  rw [check4, lengthByte_flipBit (by omega), beq_eq_false_iff_ne, ← h4]
  exact byteAt_flipBit_self_ne hq hk

/-- A bit flipped in the CRC range is flipped in what the CRC is computed over, and elsewhere the range
is left alone. -/
theorem crcRange_flipBit (len : Nat) (hq : 1 ≤ q) :
    crcRange (flipBit f q k) len
      = if q < 4 + len then flipBit (crcRange f len) (q - 1) k else crcRange f len := by
  have hset (y : Byte) : crcRange (f.set q y) len = (crcRange f len).set (q - 1) y := by
    rw [crcRange, slice, List.take_set, List.drop_set, if_neg (by omega)]
    rfl
  rw [flipBit, hset]
  split
  case isTrue hin =>
    have hbyte : byteAt (crcRange f len) (q - 1) = byteAt f q := by
      simp only [byteAt, crcRange, slice, List.getD_eq_getElem?_getD, List.getElem?_drop,
        show 1 + (q - 1) = q by omega, List.getElem?_take_of_lt hin]
    rw [flipBit, hbyte]
  case isFalse hout =>
    refine List.set_eq_of_length_le ?_
    rw [crcRange, slice_length]
    omega

/-- Behind the length byte and before the terminator a flipped bit fails check 5: in the CRC range the
computed CRC changes and the transmitted one does not, in the CRC bytes it is the other way round. -/
theorem check5_flipBit {p : CrcParams} (hpoly : p.poly.getLsbD 0 = true) (hk : k < 8) (hq : 1 ≤ q)
    (hq3 : q ≠ 3) (hqcrc : q < 6 + lengthByte f) (hlen : lengthByte f + 7 ≤ f.length)
    (h5 : check5 p f = true) : check5 p (flipBit f q k) = false := by
  rw [check5_iff, computedCrc] at h5
  rw [← Bool.not_eq_true, check5_iff, computedCrc, lengthByte_flipBit hq3, crcRange_flipBit _ hq]
  intro h5'
  split at h5'
  case isTrue hrange =>
    have htransmitted : transmittedCrc (flipBit f q k) (lengthByte f)
        = transmittedCrc f (lengthByte f) := by
      rw [transmittedCrc, transmittedCrc, byteAt_flipBit_ne (by omega), byteAt_flipBit_ne (by omega)]
    have hin : q - 1 < (crcRange f (lengthByte f)).length := by
      rw [crcRange, slice_length]
      omega
    exact flippedBitChangesTheCrc p _ _ k hpoly hin hk (h5'.trans (htransmitted.trans h5.symm))
  case isFalse hrange =>
    obtain ⟨hlo, hhi⟩ := le16_injective _ _ _ _ (h5'.symm.trans h5)
    obtain rfl | rfl : q = 4 + lengthByte f ∨ q = 5 + lengthByte f := by omega
    · exact byteAt_flipBit_self_ne (by omega) hk hlo
    · exact byteAt_flipBit_self_ne (by omega) hk hhi

end Flip

/-- R191's counter-example for a falling length byte: a valid request whose length byte, with bit 2
cleared, announces a shorter frame that is valid too. -/
theorem valid_with_length_byte_lowered :
    let f : List Byte :=
      [0x02#8, 0x05#8, 0x01#8, 0x04#8, 0x11#8, 0x91#8, 0x03#8, 0x00#8, 0xF1#8, 0x30#8, 0x03#8]
    validate crcDefault f = .validRequest (header f)
      ∧ validate crcDefault (flipBit f 3 2) = .validRequest (header (flipBit f 3 2)) := by
  decide +kernel

/-- Settles O31: at each offset the checks before the one that fails are left as they were. -/
theorem singleBitFlipsAreRejected : Obligations.SingleBitFlipsAreRejected := by
  refine ⟨?_, ⟨_, valid_with_length_byte_lowered.1, rfl⟩, ⟨_, valid_with_length_byte_lowered.2, rfl⟩⟩
  intro p f q k hpoly hlen hvalid hq hk g
  obtain ⟨h1, h2, h3, h4, h5⟩ := checks_of_valid p f hvalid
  have crcFails (hq2 : 2 ≤ q) (hq3 : q ≠ 3) (hqcrc : q < lengthByte f + 6) :
      ∃ x y, validate p g = .invalid (.crcMismatch x y) :=
    ⟨_, _, validate_crcMismatch ((check1_flipBit (by omega)).trans h1)
      ((check2_flipBit (by omega)).trans h2) ((check3_flipBit hq3).trans h3)
      ((check4_flipBit hq3 (by omega)).trans h4)
      (check5_flipBit hpoly hk (by omega) hq3 (by omega) hlen.ge h5)⟩
  refine ⟨?_, ?_, fun h => crcFails (by omega) (by omega) (by omega), ?_,
    fun hq4 => crcFails (by omega) (by omega), ?_⟩
  · rintro rfl
    exact validate_badStart (check1_flipBit_start hq hk h1)
  · rintro rfl
    exact validate_badKind ((check1_flipBit (by decide)).trans h1) (check2_flipBit_kind hk h2)
  · rintro rfl hrises
    refine validate_incomplete ((check1_flipBit (by decide)).trans h1)
      ((check2_flipBit (by decide)).trans h2) ?_
    rw [← Bool.not_eq_true, check3_iff, flipBit_length]
    omega
  · intro hterm
    obtain rfl : q = 6 + lengthByte f := by omega
    exact validate_badTerminator ((check1_flipBit (by omega)).trans h1)
      ((check2_flipBit (by omega)).trans h2) ((check3_flipBit (by omega)).trans h3)
      (check4_flipBit_terminator hq hk h4)

end Sys2Proof.Machine
end

section
/-! The telemetry codec (43_telemetry_codec.md): what TC.DECODE, the unpack operations, TC.SCALE and
TC.ENCODE return, and what becomes of a valid reply in the loop's hand (46_control_loop.md R285). -/

namespace Sys2Proof.Machine

/-! ### TC.DECODE (R200 to R205) -/

section
variable {cfg : Config} {c : List Byte} {hdr : Header}

theorem decodeReply_unexpectedCommand
    (h : hdr.command ≠ some CMD_TELEMETRY ∨ hdr.subcommand ≠ some SUB_TELEMETRY) :
    decodeReply cfg c hdr = .unexpectedCommand hdr.command hdr.subcommand :=
  if_pos h

theorem decodeReply_lengthMismatch (hcommand : hdr.command = some CMD_TELEMETRY)
    (hsubcommand : hdr.subcommand = some SUB_TELEMETRY) (hlen : hdr.dataLen ≠ TELEMETRY_DATA_LEN) :
    decodeReply cfg c hdr = .lengthMismatch hdr.dataLen := by
  rw [decodeReply_of_command cfg c hdr ⟨hcommand, hsubcommand⟩, if_pos hlen]

theorem decodeReply_record (hcommand : hdr.command = some CMD_TELEMETRY)
    (hsubcommand : hdr.subcommand = some SUB_TELEMETRY) (hlen : hdr.dataLen = TELEMETRY_DATA_LEN) :
    decodeReply cfg c hdr = .record (unpackRecord cfg c) := by
  rw [decodeReply_of_command cfg c hdr ⟨hcommand, hsubcommand⟩, if_neg (not_not.2 hlen)]

variable {s : State}

theorem exec_tcDecode_record {rec : TelemetryRecord} (hvalid : validate s.cfg.crc c = .validReply hdr)
    (hdecode : decodeReply s.cfg c hdr = .record rec) :
    exec (.tcDecode c hdr) s = .next ((s.setRecord rec).ret (.decoded (.record rec))) := by
  rw [exec, execTcDecode, if_pos hvalid, hdecode]

/-- A failure of TC.DECODE leaves no partial record (R205). -/
theorem exec_tcDecode_failure {d : DecodeResult} (hvalid : validate s.cfg.crc c = .validReply hdr)
    (hdecode : decodeReply s.cfg c hdr = d) (hfailure : ∀ rec, d ≠ .record rec) :
    exec (.tcDecode c hdr) s = .next (s.ret (.decoded d)) := by
  rw [exec, execTcDecode, if_pos hvalid, hdecode]
  cases d with
  | record rec => exact absurd rfl (hfailure rec)
  | unexpectedCommand | lengthMismatch => rfl

theorem exec_tcDecode_refused (h : validate s.cfg.crc c ≠ .validReply hdr) :
    exec (.tcDecode c hdr) s = .refused .notValidReply :=
  if_neg h

end

/-- Settles O32: each test of R200 decides what the decoded reply is, and TC.DECODE returns it. -/
theorem decodeTestsCommandThenLength : Obligations.DecodeTestsCommandThenLength := by
  refine fun s c hdr => ⟨fun hvalid => ?_, exec_tcDecode_refused⟩
  split
  case isTrue hother =>
    exact exec_tcDecode_failure hvalid (decodeReply_unexpectedCommand hother) nofun
  case isFalse htelemetry =>
    obtain ⟨hcommand, hsubcommand⟩ : hdr.command = some 0x60#8 ∧ hdr.subcommand = some 0x01#8 := by
      simpa using htelemetry
    split
    case isTrue hlen =>
      exact exec_tcDecode_failure hvalid (decodeReply_lengthMismatch hcommand hsubcommand hlen) nofun
    case isFalse hlen =>
      exact exec_tcDecode_record hvalid
        (decodeReply_record hcommand hsubcommand (not_not.1 hlen))

/-! ### Complete records (R205, R212) -/

theorem length_of_recordComplete {rec : TelemetryRecord} (h : recordComplete rec = true) :
    rec.length = 39 := by
  simp only [recordComplete, Bool.and_eq_true, decide_eq_true_eq] at h
  obtain ⟨hnames, -⟩ := h
  calc rec.length = (rec.map (·.1)).length := (List.length_map _).symm
    _ = fieldNames.length := congrArg List.length hnames
    _ = 39 := by decide

/-- Settles O33: a valid reply has passed the length test of FV, so every field is there to be read. -/
theorem decodedRecordsAreComplete : Obligations.DecodedRecordsAreComplete := by
  intro p cfg c hdr rec hvalid hdecode
  obtain ⟨rfl, hcheck3⟩ := header_of_valid p c hdr (.inr hvalid)
  have hcomplete := recordComplete_of_decodeReply cfg c rec hcheck3 hdecode
  exact ⟨length_of_recordComplete hcomplete, hcomplete⟩

/-! ### The unpack operations (R206 to R211) -/

theorem be_one (b : Byte) : be [b] = b.toNat := by simp [be]

theorem be_two (b0 b1 : Byte) : be [b0, b1] = 256 * b0.toNat + b1.toNat := by simp [be]

theorem be_four (b0 b1 b2 b3 : Byte) :
    be [b0, b1, b2, b3]
      = 16777216 * b0.toNat + 65536 * b1.toNat + 256 * b2.toNat + b3.toNat := by
  simp only [be, List.foldl]
  omega

section
variable (s : State)

theorem exec_tcUnpackAscii (bs : List Byte) :
    exec (.tcUnpackAscii bs) s = .next (s.ret (.value (.str bs))) := rfl

theorem exec_tcUnpackU8 (b : Byte) :
    exec (.tcUnpackU8 b) s = .next (s.ret (.value (.plain (be [b])))) := rfl

theorem exec_tcUnpackU16 (name : U16Field) (b0 b1 : Byte) :
    exec (.tcUnpackU16 name b0 b1) s
      = .next (s.ret (.value (measuredValue s.cfg (.u16 name) [b0, b1]))) := rfl

theorem exec_tcUnpackU32 (name : U32Field) (b0 b1 b2 b3 : Byte) :
    exec (.tcUnpackU32 name b0 b1 b2 b3) s
      = .next (s.ret (.value (measuredValue s.cfg (.u32 name) [b0, b1, b2, b3]))) := rfl

theorem exec_tcUnpackRaw32 (b0 b1 b2 b3 : Byte) :
    exec (.tcUnpackRaw32 b0 b1 b2 b3) s
      = .next (s.ret (.value (.raw (be [b0, b1, b2, b3])))) := rfl

theorem exec_tcUnpackPad (bs : List Byte) :
    exec (.tcUnpackPad bs) s = .next (s.ret .nothing) := rfl

end

/-- Settles O35: each value is the big-endian number of its bytes. -/
theorem unpackOperationsReturnTheirValues : Obligations.UnpackOperationsReturnTheirValues := by
  intro s bs b0 b1 b2 b3 m n
  refine ⟨exec_tcUnpackAscii s bs, ?_, ?_, ?_, ?_, exec_tcUnpackPad s bs⟩
  · rw [exec_tcUnpackU8, be_one]
    rfl
  · rw [exec_tcUnpackU16, measuredValue, be_two]
    rfl
  · rw [exec_tcUnpackU32, measuredValue, be_four]
    rfl
  · rw [exec_tcUnpackRaw32, be_four]
    rfl

/-! ### TC.SCALE (R213) -/

/-- A negative exponent divides by the power of ten, any other multiplies by it. -/
theorem scaledValue_eq_mul_zpow (raw : Nat) (exp : Int) :
    scaledValue raw exp = (raw : Rat) * (10 : Rat) ^ exp := by
  cases exp with
  | ofNat k => simp [scaledValue, Rat.mkRat_eq_div]
  | negSucc k => simp [scaledValue, Rat.mkRat_eq_div, zpow_negSucc, div_eq_mul_inv]

theorem exec_tcScale (raw : Nat) (exp : Int) (unit : Text) (s : State) :
    exec (.tcScale raw exp unit) s = .next (s.ret (.scaled (scaledValue raw exp) unit)) := rfl

/-- Settles O36. -/
theorem scaledValuesAreExact : Obligations.ScaledValuesAreExact := by
  intro s raw exp unit
  rw [exec_tcScale, scaledValue_eq_mul_zpow]
  rfl

/-! ### TC.ENCODE (R225, R226) -/

theorem encodeRefuses_iff (id : Byte) (cmd : List Byte) :
    encodeRefuses id cmd = true ↔ id = 0#8 ∨ 255 < cmd.length := by
  simp [encodeRefuses]

theorem exec_tcEncode_refused {id : Byte} {cmd : List Byte} (s : State)
    (h : encodeRefuses id cmd = true) :
    exec (.tcEncode id cmd) s
      = .next ((s.fail (.encodeRefused id cmd.length)).ret (.encodeRefused id cmd.length)) :=
  if_pos h

theorem exec_tcEncode {id : Byte} {cmd : List Byte} (s : State) (h : ¬encodeRefuses id cmd = true) :
    exec (.tcEncode id cmd) s
      = .next (((s.setAcc (crcAccOf s.cfg.crc (encodeBody id cmd))).setTb
          (encodeFrame s.cfg.crc id cmd)).ret (.frame (encodeFrame s.cfg.crc id cmd))) :=
  if_neg h

theorem loByte_eq_setWidth (v : Word16) : loByte v = v.setWidth 8 :=
  (BitVec.setWidth_eq_extractLsb' (by decide)).symm

theorem hiByte_eq_setWidth (v : Word16) : hiByte v = (v >>> 8).setWidth 8 :=
  (BitVec.setWidth_ushiftRight_eq_extractLsb).symm

/-- The request in TB: STX, the bytes of its CRC range, the CRC low byte first, ETX (R225). -/
theorem encodeFrame_eq_append (p : CrcParams) (id : Byte) (cmd : List Byte) :
    encodeFrame p id cmd
      = [STX] ++ encodeBody id cmd
        ++ [(crc16 p (encodeBody id cmd)).setWidth 8,
            (crc16 p (encodeBody id cmd) >>> 8).setWidth 8, ETX] := by
  rw [encodeFrame_eq_frameBytes, frameBytes, loByte_eq_setWidth, hiByte_eq_setWidth]
  rfl

/-- Settles O37: the domain test of R226 decides, and inside the domain TB holds the request. -/
theorem encodeBuildsTheRequestOrRefuses : Obligations.EncodeBuildsTheRequestOrRefuses := by
  intro s id cmd body v frame
  refine ⟨fun ⟨hid, hcmd⟩ => ⟨crcAccOf s.cfg.crc (encodeBody id cmd), ?_⟩, fun hrefuse => ?_⟩
  · have hdomain : ¬encodeRefuses id cmd = true := by
      rw [encodeRefuses_iff]
      exact not_or.2 ⟨hid, hcmd.not_gt⟩
    rw [exec_tcEncode s hdomain, encodeFrame_eq_append]
    rfl
  · exact exec_tcEncode_refused s ((encodeRefuses_iff id cmd).2 hrefuse)

/-! ### A valid reply in the loop's hand (R285) -/

/-- A reply closed by its own CRC and terminator is handed to the row's action with its header
(R186). -/
theorem onValid_reply (s : State) (id : Byte) (payload : List Byte) {crc : Word16}
    (k : State → Header → State) (hpayload : payload.length ≤ 255)
    (hcrc : frameCrc s.cfg.crc ACK id payload = crc) :
    ∃ acc, s.onValid (frameBytes ACK id payload crc ETX) k
      = k (s.stampTraffic.setAcc acc) (header (frameBytes ACK id payload crc ETX)) := by
  obtain ⟨acc, h⟩ := onValid_frameBytes s ACK id payload crc ETX k (.inr rfl) hpayload
  rw [if_neg (not_not.2 rfl), if_neg (not_not.2 hcrc)] at h
  exact ⟨acc, h⟩

theorem exec_frameReplyTelemetry (id : Byte) (data : List Byte) (crc : Word16) (term : Byte)
    (s : State) :
    exec (.frameReplyTelemetry id data crc term) s
      = s.inLoop (valuesOk s.cfg s.devs) (fun s =>
          (s.onValid (frameBytes ACK id (CMD_BYTES_TELEMETRY ++ data) crc term) (fun s hdr =>
            s.dispatchReply (frameBytes ACK id (CMD_BYTES_TELEMETRY ++ data) crc term) hdr)).ret
              .nothing) :=
  rfl

theorem exec_frameReplyBadlen (id : Byte) (data : List Byte) (crc : Word16) (term : Byte)
    (s : State) :
    exec (.frameReplyBadlen id data crc term) s
      = s.inLoop (valuesOk s.cfg s.devs) (fun s =>
          (s.onValid (frameBytes ACK id (CMD_BYTES_TELEMETRY ++ data) crc term) (fun s hdr =>
            s.fail (.decodeLengthMismatch hdr.deviceId hdr.dataLen))).ret .nothing) :=
  rfl

theorem exec_frameReplyOther (id : Byte) (payload : List Byte) (crc : Word16) (term : Byte)
    (s : State) :
    exec (.frameReplyOther id payload crc term) s
      = s.inLoop (valuesOk s.cfg s.devs) (fun s =>
          (s.onValid (frameBytes ACK id payload crc term) (fun s hdr =>
            s.fail (.unexpectedCommand hdr.deviceId hdr.command hdr.subcommand))).ret .nothing) :=
  rfl

/-- Settles O47: both rows hand a valid reply to one failure, whose information is the header's. -/
theorem otherRepliesAreDiscardedByName : Obligations.OtherRepliesAreDiscardedByName := by
  intro s id payload hreceive hpayload next
  have hheader := header_frameBytes ACK id payload (frameCrc s.cfg.crc ACK id payload) ETX hpayload
  constructor
  · intro _
    obtain ⟨acc, hvalid⟩ := onValid_reply s id payload (fun s hdr =>
      s.fail (.unexpectedCommand hdr.deviceId hdr.command hdr.subcommand)) hpayload rfl
    refine ⟨acc, ?_⟩
    rw [exec_frameReplyOther, inLoop_of_canReceive s _ hreceive, hvalid, hheader]
    rfl
  · intro hbegins _
    have hsplit : CMD_BYTES_TELEMETRY ++ payload.drop 2 = payload := by
      rw [show CMD_BYTES_TELEMETRY = payload.take 2 from hbegins.symm, List.take_append_drop]
    obtain ⟨acc, hvalid⟩ := onValid_reply s id payload (fun s hdr =>
      s.fail (.decodeLengthMismatch hdr.deviceId hdr.dataLen)) hpayload rfl
    refine ⟨acc, ?_⟩
    rw [exec_frameReplyBadlen, inLoop_of_canReceive s _ hreceive, hsplit, hvalid, hheader]
    rfl

/-! ### A telemetry reply (R200, R269, R271) -/

theorem length_telemetryPayload {data : List Byte} (h : data.length = TELEMETRY_DATA_LEN) :
    (CMD_BYTES_TELEMETRY ++ data).length = TELEMETRY_LENGTH := by
  rw [List.length_append, h]
  rfl

theorem check3_frameBytes (kind id : Byte) (payload : List Byte) (crc : Word16) (term : Byte)
    (h : payload.length ≤ 255) : check3 (frameBytes kind id payload crc term) = true := by
  rw [check3_iff, frameBytes_length, lengthByte_frameBytes kind id payload crc term h]
  omega

section
variable (cfg : Config) (id : Byte) {data : List Byte} (crc : Word16) (term : Byte)

/-- A whole telemetry reply decodes to the record of its walk. -/
theorem decodeReply_telemetry (hdata : data.length = TELEMETRY_DATA_LEN) :
    decodeReply cfg (frameBytes ACK id (CMD_BYTES_TELEMETRY ++ data) crc term)
        (header (frameBytes ACK id (CMD_BYTES_TELEMETRY ++ data) crc term))
      = .record (unpackRecord cfg (frameBytes ACK id (CMD_BYTES_TELEMETRY ++ data) crc term)) := by
  have hlen := length_telemetryPayload hdata
  have hheader := header_frameBytes ACK id (CMD_BYTES_TELEMETRY ++ data) crc term
    (hlen.trans_le (by decide))
  rw [hlen] at hheader
  apply decodeReply_record <;> rw [hheader] <;> rfl

theorem recordComplete_telemetry (hdata : data.length = TELEMETRY_DATA_LEN) :
    recordComplete (unpackRecord cfg (frameBytes ACK id (CMD_BYTES_TELEMETRY ++ data) crc term))
      = true :=
  have hpayload := (length_telemetryPayload hdata).trans_le (by decide)
  recordComplete_of_decodeReply cfg _ _ (check3_frameBytes ACK id _ crc term hpayload)
    (decodeReply_telemetry cfg id crc term hdata)

end

theorem dispatchReply_record {s : State} {c : List Byte} {hdr : Header} {rec : TelemetryRecord}
    (h : decodeReply s.cfg c hdr = .record rec) :
    s.dispatchReply c hdr = (s.setRecord rec).deliver hdr.deviceId := by
  rw [State.dispatchReply, h]

theorem deliver_unknown {s : State} {id : Byte} (h : devIndex s.devs id = none) :
    s.deliver id = (s.fail (.unknownDevice id)).setRecord [] := by
  rw [State.deliver, h]

theorem deliver_known {s : State} {id : Byte} {i : Nat} (h : devIndex s.devs id = some i) :
    s.deliver id = ((s.emit [.record i s.record]).accept i s.record s.loop.t).setRecord [] := by
  rw [State.deliver, h]

/-- SA.ACCEPT does not look at `rec`, and leaves it. -/
theorem accept_setRecord (s : State) (r : TelemetryRecord) (i : Nat) (rec : TelemetryRecord)
    (t : Time) : (s.setRecord r).accept i rec t = (s.accept i rec t).setRecord r := by
  simp only [State.accept, State.setRecord_devs]
  cases s.devs[i]? <;> rfl

theorem accept_ret (s : State) (res : Result) (i : Nat) (rec : TelemetryRecord) (t : Time) :
    (s.ret res).accept i rec t = (s.accept i rec t).ret res := by
  simp only [State.accept, State.ret_devs]
  cases s.devs[i]? <;> rfl

theorem exec_saAccept {s : State} {i : Nat} {rec : TelemetryRecord} (t : Time)
    (hi : i < s.devs.length) (hrec : recordComplete rec = true) :
    exec (.saAccept i rec t) s = .next ((s.accept i rec t).ret .nothing) := by
  rw [exec, execSaAccept, if_neg (Nat.not_le.2 hi), if_pos hrec]

/-- The delivery of a decoded record to an entry of the table is SA.ACCEPT at this time, behind the
`Record` event (R269, R285). -/
theorem exec_saAccept_deliver {s : State} {id : Byte} {i : Nat} (hdev : devIndex s.devs id = some i)
    (hrec : recordComplete s.record = true) :
    exec (.saAccept i s.record s.loop.t) (((s.emit [.record i s.record]).setRecord []).ret .nothing)
      = .next ((s.deliver id).ret .nothing) := by
  have hi : i < (((s.emit [.record i s.record]).setRecord []).ret .nothing).devs.length :=
    devIndex_lt s.devs id i hdev
  rw [exec_saAccept _ hi hrec, accept_ret, accept_setRecord, State.ret_ret, deliver_known hdev]

/-- A telemetry reply closed by its own CRC and terminator is decoded and delivered for its address
(R200, R285). -/
theorem exec_frameReplyTelemetry_delivers {s : State} {id : Byte} {data : List Byte} {crc : Word16}
    (hreceive : s.CanReceive) (hdata : data.length = TELEMETRY_DATA_LEN)
    (hcrc : frameCrc s.cfg.crc ACK id (CMD_BYTES_TELEMETRY ++ data) = crc) :
    ∃ acc, exec (.frameReplyTelemetry id data crc ETX) s
      = .next ((((s.stampTraffic.setAcc acc).setRecord (unpackRecord s.cfg
          (frameBytes ACK id (CMD_BYTES_TELEMETRY ++ data) crc ETX))).deliver id).ret .nothing) := by
  have hpayload := (length_telemetryPayload hdata).trans_le (by decide : TELEMETRY_LENGTH ≤ 255)
  obtain ⟨acc, hvalid⟩ := onValid_reply s id (CMD_BYTES_TELEMETRY ++ data) (fun s hdr =>
    s.dispatchReply (frameBytes ACK id (CMD_BYTES_TELEMETRY ++ data) crc ETX) hdr) hpayload hcrc
  have hdispatch := dispatchReply_record (s := s.stampTraffic.setAcc acc)
    (decodeReply_telemetry s.cfg id crc ETX hdata)
  refine ⟨acc, ?_⟩
  rw [exec_frameReplyTelemetry, inLoop_of_canReceive s _ hreceive, hvalid, hdispatch]
  rfl

/-- Settles O46: from a configured address the delivery is SA.ACCEPT at this time, from another it is
the status alone. -/
theorem telemetryRepliesAreDecodedAndDelivered :
    Obligations.TelemetryRepliesAreDecodedAndDelivered := by
  intro s id data hreceive hdata crc record
  obtain ⟨acc, hexec⟩ := exec_frameReplyTelemetry_delivers (crc := crc) hreceive hdata rfl
  let decoded : State := (s.stampTraffic.setAcc acc).setRecord record
  refine ⟨acc, (decoded.deliver id).ret .nothing, hexec, ?_⟩
  intro base
  cases hdev : devIndex s.devs id with
  | none => exact congrArg (State.ret · .nothing) (deliver_unknown (s := decoded) hdev)
  | some k =>
    exact exec_saAccept_deliver (s := decoded) hdev (recordComplete_telemetry s.cfg id crc ETX hdata)

end Sys2Proof.Machine
end

section
/-! The poll scheduler (44_poll_scheduler.md): what PS.TICK and PS.NOTE_TRAFFIC do, and which
instructions transmit at all (20_memory.md R63; 70_reset_and_hazards.md R343): PS.TICK, and RUN in an
iteration whose reader call passed in silence. -/

namespace Sys2Proof.Machine

/-! ### PS.NOTE_TRAFFIC (R244) -/

/-- Settles O39. -/
theorem noteTrafficWritesTheTimeStamp : Obligations.NoteTrafficWritesTheTimeStamp :=
  fun _ _ => rfl

/-! ### PS.TICK (R240 to R247) -/

theorem exec_psTick {s : State} (t : Time) (hidle : s.fr.phase = .idle)
    (hids : addressesNonzero s.devs = true) :
    exec (.psTick t) s = .next ((s.tick t).ret .nothing) := by
  rw [exec, execPsTick, if_neg (not_not.2 hidle), if_pos hids]

theorem exec_psTick_readerBusy {s : State} (t : Time) (hcall : s.fr.phase ≠ .idle) :
    exec (.psTick t) s = .refused .readerBusy :=
  if_pos hcall

theorem exec_psTick_badConfig {s : State} (t : Time) (hidle : s.fr.phase = .idle)
    (hids : addressesNonzero s.devs = false) : exec (.psTick t) s = .refused .badConfig := by
  rw [exec, execPsTick, if_neg (not_not.2 hidle), hids]
  rfl

/-- The nine bytes of a telemetry request (R243). -/
theorem telemetryRequest_eq (p : CrcParams) (id : Byte) :
    telemetryRequest p id
      = [0x02#8, 0x05#8, id, 0x02#8, 0x60#8, 0x01#8,
          loByte (crc16 p [0x05#8, id, 0x02#8, 0x60#8, 0x01#8]),
          hiByte (crc16 p [0x05#8, id, 0x02#8, 0x60#8, 0x01#8]), 0x03#8] :=
  encodeFrame_eq_frameBytes p id CMD_BYTES_TELEMETRY

/-- The quiet bus is one condition on every device (R240, R241). -/
theorem dueDevices_eq_filter (cfg : Config) (clk : Clock) (devs : List Device) (t : Time) :
    dueDevices cfg clk devs t
      = devs.filter (fun d => trafficQuiet cfg clk t && sampleDue cfg d t) := by
  unfold dueDevices
  cases trafficQuiet cfg clk t <;> simp

/-- Settles O38: one evaluation asks the devices that pass both tests, with the request of R243. -/
theorem tickAsksEveryDueDevice : Obligations.TickAsksEveryDueDevice := by
  intro s t
  refine ⟨?_, exec_psTick_readerBusy t, exec_psTick_badConfig t⟩
  intro hidle hids quiet due request
  obtain ⟨acc, tb, htick, -⟩ := tick_spec s t
  have hdue : dueDevices s.cfg s.clk s.devs t = s.devs.filter (fun d => decide (due d)) := by
    rw [dueDevices_eq_filter]
    refine List.filter_congr fun d _ => ?_
    rw [Bool.eq_iff_iff, Bool.and_eq_true, decide_eq_true_iff, trafficQuiet_iff, sampleDue_iff]
  have hrequest (id : Byte) : telemetryRequest s.cfg.crc id = request id :=
    telemetryRequest_eq s.cfg.crc id
  refine ⟨acc, tb, ?_⟩
  rw [exec_psTick t hidle hids, htick, hdue]
  simp only [hrequest]
  rfl

/-! ### The transmissions of a trace -/

/-- The bytes an output event puts on the bus, if it is a `Tx` (00_scope.md R15). -/
def OutEvent.txBytes : OutEvent → Option (List Byte)
  | .tx bs => some bs
  | _ => none

/-- What a list of output events puts on the bus, in order. -/
def transmissions (es : List OutEvent) : List (List Byte) := es.filterMap OutEvent.txBytes

@[simp] theorem transmissions_nil : transmissions [] = [] := rfl

@[simp] theorem transmissions_append (es es' : List OutEvent) :
    transmissions (es ++ es') = transmissions es ++ transmissions es' :=
  List.filterMap_append

@[simp] theorem transmissions_status (st : Status) : transmissions [.status st] = [] := rfl

@[simp] theorem transmissions_record (i : Nat) (rec : TelemetryRecord) :
    transmissions [.record i rec] = [] := rfl

@[simp] theorem transmissions_reportInit (i : Nat) (serial : Option (List Byte)) :
    transmissions [.reportInit i serial] = [] := rfl

theorem transmissions_eq_nil_iff (es : List OutEvent) :
    transmissions es = [] ↔ ∀ bs, OutEvent.tx bs ∉ es := by
  rw [transmissions, List.filterMap_eq_nil_iff]
  refine ⟨fun h bs hbs => ?_, fun h e he => ?_⟩
  · cases h _ hbs
  · cases e with
    | tx bs => exact absurd he (h bs)
    | _ => rfl

/-- Nothing is transmitted on the way from one state to the other. -/
def State.Silent (s t : State) : Prop := transmissions t.env.trace = transmissions s.env.trace

namespace State
variable {s t u : State}

/-- What a silent way appends to the trace holds no `Tx`. -/
theorem Silent.noTx (h : s.Silent t) {es : List OutEvent} (hes : t.env.trace = s.env.trace ++ es) :
    ∀ bs, OutEvent.tx bs ∉ es := by
  rw [Silent, hes, transmissions_append] at h
  exact (transmissions_eq_nil_iff es).1 (List.append_right_eq_self.1 h)

theorem silent_of_trace (h : t.env.trace = s.env.trace) : s.Silent t := by rw [Silent, h]

@[simp] theorem Silent.refl (s : State) : s.Silent s := rfl

theorem Silent.trans (h : s.Silent t) (h' : t.Silent u) : s.Silent u := Eq.trans h' h

@[simp] theorem silent_ret (r : Result) : s.Silent (t.ret r) ↔ s.Silent t := Iff.rfl

variable (s)

@[simp] theorem silent_fail (st : Status) : s.Silent (s.fail st) := by simp [Silent]

@[simp] theorem silent_flush (report : Bool) (t : Time) : s.Silent (s.flush report t) := by
  obtain ⟨ds, left, es, h, -, hes⟩ := flush_spec s report t
  simp [Silent, h, (transmissions_eq_nil_iff es).2 hes]

theorem silent_stop (l : LoopRegs) (st : Status) : s.Silent ((s.setLoop l).emit [.status st]) := by
  simp [Silent]

@[simp] theorem silent_fatalStop : s.Silent s.fatalStop :=
  (s.silent_flush false s.loop.t).trans (silent_stop _ _ _)

end State

/-! ### A frame in the loop's hand (46_control_loop.md R285) -/

/-- Accepting a record transmits nothing (45_sample_accumulator.md R260). -/
theorem transmissions_acceptDevice (cfg : Config) (i : Nat) (rec : TelemetryRecord) (t : Time)
    (d : Device) : transmissions (acceptDevice cfg i rec t d).2 = [] := by
  simp only [acceptDevice, createDevice_spec, storeSample_spec, transmissions_append,
    transmissions_status, List.append_nil]
  split
  · exact transmissions_reportInit i _
  · rfl

/-- What becomes of a frame between the traffic note and the scheduler evaluation leaves the
scheduler's inputs but the device table alone, and transmits nothing. -/
structure State.FrameHandled (s t : State) : Prop where
  cfg : t.cfg = s.cfg
  clk : t.clk = s.clk
  loop : t.loop = s.loop
  silent : s.Silent t

namespace State
variable {s t u : State}

theorem FrameHandled.refl (s : State) : s.FrameHandled s := ⟨rfl, rfl, rfl, rfl⟩

theorem FrameHandled.trans (h : s.FrameHandled t) (h' : t.FrameHandled u) : s.FrameHandled u :=
  ⟨h'.cfg.trans h.cfg, h'.clk.trans h.clk, h'.loop.trans h.loop, h.silent.trans h'.silent⟩

variable (s)

theorem frameHandled_emit (es : List OutEvent) (h : transmissions es = []) :
    s.FrameHandled (s.emit es) :=
  ⟨rfl, rfl, rfl, by simp [Silent, h]⟩

theorem frameHandled_fail (st : Status) : s.FrameHandled (s.fail st) := s.frameHandled_emit _ rfl

theorem frameHandled_setAcc (v : Word16) : s.FrameHandled (s.setAcc v) := ⟨rfl, rfl, rfl, rfl⟩

theorem frameHandled_setRecord (rec : TelemetryRecord) : s.FrameHandled (s.setRecord rec) :=
  ⟨rfl, rfl, rfl, rfl⟩

theorem frameHandled_accept (i : Nat) (rec : TelemetryRecord) (t : Time) :
    s.FrameHandled (s.accept i rec t) := by
  unfold accept
  cases s.devs[i]? with
  | none => exact .refl s
  | some d =>
    have hdevs : s.FrameHandled (s.setDevs (s.devs.set i (acceptDevice s.cfg i rec t d).1)) :=
      ⟨rfl, rfl, rfl, rfl⟩
    exact hdevs.trans (frameHandled_emit _ _ (transmissions_acceptDevice s.cfg i rec t d))

theorem frameHandled_deliver (id : Byte) : s.FrameHandled (s.deliver id) := by
  cases hdev : devIndex s.devs id with
  | none =>
    rw [deliver_unknown hdev]
    exact (s.frameHandled_fail _).trans (frameHandled_setRecord _ _)
  | some i =>
    rw [deliver_known hdev]
    exact ((s.frameHandled_emit _ (transmissions_record i _)).trans
      (frameHandled_accept _ _ _ _)).trans (frameHandled_setRecord _ _)

theorem frameHandled_dispatchReply (c : List Byte) (hdr : Header) :
    s.FrameHandled (s.dispatchReply c hdr) := by
  unfold dispatchReply
  split
  · exact (s.frameHandled_setRecord _).trans (frameHandled_deliver _ _)
  · exact s.frameHandled_fail _
  · exact s.frameHandled_fail _

/-- A frame is handled silently when what takes its header is. -/
theorem frameHandled_onValid (c : List Byte) (k : State → Header → State)
    (hk : ∀ (s : State) (hdr : Header), s.FrameHandled (k s hdr)) :
    s.stampTraffic.FrameHandled (s.onValid c k) := by
  refine (frameHandled_setAcc _
    (validateAcc s.stampTraffic.cfg.crc c s.stampTraffic.crcAcc)).trans ?_
  dsimp only [onValid]
  split
  · exact frameHandled_fail _ _
  · exact hk _ _
  · exact hk _ _

theorem frameHandled_receive (c : List Byte) : s.stampTraffic.FrameHandled (s.receive c) := by
  rw [← onValid_eq_receive s c
    (fun u hdr => if byteAt c 1 = ENQ then u.emit [.status (.validRequest hdr.deviceId)]
      else u.dispatchReply c hdr) (fun hk _ _ => if_pos hk) (fun hk _ => if_neg hk)]
  refine s.frameHandled_onValid c _ fun u hdr => ?_
  split
  · exact u.frameHandled_emit _ (transmissions_status _)
  · exact u.frameHandled_dispatchReply c hdr

theorem silent_stampTraffic : s.Silent s.stampTraffic := silent_of_trace rfl

/-! ### An iteration (R250) -/

/-- The scheduler finds the bus busy at the time the loop has sampled (R241). -/
def BusBusy : Prop := trafficQuiet s.cfg s.clk s.loop.t = false

/-- Traffic noted in this iteration lies less than SEC(1) back (R250). -/
theorem busBusy_stampTraffic (hbase : 1 ≤ s.cfg.ticksPerSecond) : s.stampTraffic.BusBusy :=
  trafficQuiet_of_now _ _ _ rfl hbase

variable {s}

theorem FrameHandled.busBusy (h : s.FrameHandled t) (hs : s.BusBusy) : t.BusBusy := by
  rwa [BusBusy, h.cfg, h.clk, h.loop]

theorem BusBusy.silent_tick (h : s.BusBusy) : s.Silent (s.tick s.loop.t) := by
  obtain ⟨acc, tb, htick, -⟩ := tick_spec s s.loop.t
  simp [Silent, htick, dueDevices_of_busy s.cfg s.clk s.devs s.loop.t h]

theorem BusBusy.silent_finishIteration (h : s.BusBusy) : s.Silent s.finishIteration := by
  refine h.silent_tick.trans ?_
  dsimp only [finishIteration]
  split
  · exact silent_flush _ _ _
  · exact Silent.refl _

/-- After a reader call that took a byte the traffic note keeps the scheduler silent, and after one
that lost the transport the scheduler is not reached (R250, R288). -/
theorem silent_afterCall (hbase : 1 ≤ s.cfg.ticksPerSecond) {r : ReadResult}
    (hr : r ≠ .noDataTimeout) : s.Silent (s.afterCall r) := by
  cases r with
  | noDataTimeout => exact absurd rfl hr
  | fault => exact Silent.trans (silent_of_trace rfl) s.sampleNow.silent_fatalStop
  | candidate c =>
    have hframe := s.frameHandled_receive c
    exact (s.silent_stampTraffic.trans hframe.silent).trans
      (hframe.busBusy (s.busBusy_stampTraffic hbase)).silent_finishIteration
  | noDataFraming =>
    have hframe := s.stampTraffic.frameHandled_fail .noDataFraming
    exact (s.silent_stampTraffic.trans hframe.silent).trans
      (hframe.busBusy (s.busBusy_stampTraffic hbase)).silent_finishIteration

theorem silent_iterate (hbase : 1 ≤ s.cfg.ticksPerSecond)
    (hcall : (readCall s.env.rx readerStart).1 ≠ .noDataTimeout) : s.Silent s.iterate :=
  silent_afterCall
    (s := (s.setFr (readCall s.env.rx readerStart).2.2).setRx (readCall s.env.rx readerStart).2.1)
    hbase hcall

end State

/-! ### The other instructions (R63, R343) -/

section
variable (s : State)

/-- A frame, whatever its row does with the header, transmits nothing when that does not. -/
theorem frame_silent (c : List Byte) (k : State → Header → State) (ok : Bool)
    (hk : ∀ (s : State) (hdr : Header), s.FrameHandled (k s hdr)) :
    EveryNext s.Silent (s.inLoop ok (fun s => (s.onValid c k).ret .nothing)) :=
  everyNext_inLoop _ s _ _ (.refl s)
    (s.silent_stampTraffic.trans (s.frameHandled_onValid c k hk).silent)

theorem execShutdown_silent : EveryNext s.Silent (execShutdown s) := by
  simp only [execShutdown, everyNext_ite, everyNext_refused, everyNext_next, State.silent_ret]
  refine ⟨fun _ => .refl s, fun _ => ⟨fun _ => trivial, fun _ => ?_⟩⟩
  exact (State.silent_flush s.sampleNow false _).trans (State.silent_stop _ _ _)

theorem frByteOp_silent (row : FrRow) (f : Reader → Reader × Option ReadResult) :
    EveryNext s.Silent (frByteOp row f s) := by
  simp [frByteOp, State.Silent]

theorem execTcDecode_silent (c : List Byte) (hdr : Header) :
    EveryNext s.Silent (execTcDecode c hdr s) := by
  unfold execTcDecode
  cases decodeReply s.cfg c hdr <;> simp [State.Silent]

theorem execSaAccept_silent (i : Nat) (rec : TelemetryRecord) (t : Time) :
    EveryNext s.Silent (execSaAccept i rec t s) := by
  simp [execSaAccept, (s.frameHandled_accept i rec t).silent]

end

/-- The instructions that may transmit: RUN and PS.TICK (R63, R343). -/
def MayTransmit (i : Instr) : Prop := i = .run ∨ ∃ u, i = .psTick u

/-- Every other instruction is silent, TC.ENCODE included, which builds a request and does not send
it. -/
theorem exec_silent (i : Instr) (s : State) (hi : ¬ MayTransmit i) :
    EveryNext s.Silent (exec i s) := by
  cases i with
  | run => exact absurd (Or.inl rfl) hi
  | psTick u => exact absurd (Or.inr ⟨u, rfl⟩) hi
  | frameReqTelemetry id crc term =>
    exact frame_silent s _ _ _ fun s _ => s.frameHandled_emit _ (transmissions_status _)
  | frameReq id payload crc term =>
    exact frame_silent s _ _ _ fun s _ => s.frameHandled_emit _ (transmissions_status _)
  | frameReplyTelemetry id data crc term =>
    exact frame_silent s _ _ _ fun s hdr => s.frameHandled_dispatchReply _ hdr
  | frameReplyBadlen | frameReplyOther =>
    exact frame_silent s _ _ _ fun s _ => s.frameHandled_fail _
  | reset => simp [exec, execReset, State.Silent, State.resetWith]
  | shutdown => exact execShutdown_silent s
  | fatal => simp [exec, execFatal]
  | crcReset | crcByte | crcBlock | crcValue | crcCheck =>
    simp [exec, execCrcReset, execCrcByte, execCrcBlock, execCrcValue, execCrcCheck, State.Silent]
  | frByteHunt | frByteKind | frByteHdr | frByteBody | frByteLast => exact frByteOp_silent s _ _
  | frStart | frTimeout | frFault =>
    simp [exec, execFrStart, execFrTimeout, execFrFault, State.Silent]
  | fvValidate | fvHeader => simp [exec, execFvValidate, execFvHeader, State.Silent]
  | tcDecode c hdr => exact execTcDecode_silent s c hdr
  | tcUnpackAscii | tcUnpackU8 | tcUnpackU16 | tcUnpackU32 | tcUnpackRaw32 | tcUnpackPad =>
    simp [exec, execTcUnpackAscii, execTcUnpackU8, execTcUnpackU16, execTcUnpackU32,
      execTcUnpackRaw32, execTcUnpackPad]
  | tcScale | tcEncode => simp [exec, execTcScale, execTcEncode, State.Silent]
  | psNoteTraffic t => simp [exec, execPsNoteTraffic, State.Silent]
  | saAccept k rec t => exact execSaAccept_silent s k rec t
  | saFlush | saFinalFlush => simp [exec, execSaFlush, execSaFinalFlush]

/-- What RUN can do: nothing when the block is halted, and otherwise one iteration (R280, R287). -/
theorem exec_run_next {s t : State} (h : exec .run s = .next t) :
    (s.loop.halted = true ∧ t = s)
      ∨ (s.loop.halted = false ∧ configOk s.cfg s.devs = true ∧ s.fr.phase = .idle
          ∧ t = s.freeze.iterate.ret .nothing) :=
  inLoop_next s t _ (fun s => s.freeze.iterate.ret .nothing) h

/-- Neither RUN nor PS.TICK transmits while a reader call is in progress (R63). -/
theorem exec_silent_of_reading (i : Instr) (s : State) (hcall : s.fr.phase ≠ .idle) :
    EveryNext s.Silent (exec i s) := by
  by_cases hi : MayTransmit i
  · obtain rfl | ⟨u, rfl⟩ := hi
    · intro t h
      obtain ⟨-, rfl⟩ | ⟨-, -, hidle, -⟩ := exec_run_next h
      · exact .refl t
      · exact absurd hidle hcall
    · simp [exec_psTick_readerBusy u hcall]
  · exact exec_silent i s hi

/-! ### A step -/

/-- A step that transmits takes RUN or PS.TICK from the operation port, between reader calls. -/
theorem stepItem_silent_or (s : State) (item : HostItem) :
    EveryNext (fun t => s.Silent t ∨ s.fr.phase = .idle
      ∧ ∃ bs i, item = .op bs ∧ s.fetchOperation bs = .instr i ∧ MayTransmit i) (stepItem s item) := by
  intro t h
  cases item with
  | op bs =>
    obtain ⟨i, hfetch, -, hexec⟩ := stepItem_op_next s t bs h
    by_cases hidle : s.fr.phase = .idle
    · by_cases hi : MayTransmit i
      · exact .inr ⟨hidle, bs, i, rfl, hfetch, hi⟩
      · exact .inl (exec_silent i s hi t hexec)
    · exact .inl (exec_silent_of_reading i s hidle t hexec)
  | frame bs =>
    obtain ⟨i, hfetch, -, hexec⟩ := stepItem_frame_next s t bs h
    have hbus := performer_of_fetchFrame s bs i hfetch
    refine .inl (exec_silent i s ?_ t hexec)
    rintro (rfl | ⟨u, rfl⟩) <;> cases hbus
  | cfg w =>
    obtain ⟨-, ⟨ds, rfl, -⟩ | ⟨cfg, rfl, -⟩⟩ := hostWrite_next s t w h <;>
      exact .inl (State.silent_of_trace rfl)
  | time | rx | answer =>
    obtain rfl := Host.Outcome.next.inj h
    exact .inl (State.silent_of_trace rfl)

/-- Settles O40: the traffic note of a receiving iteration keeps its scheduler silent, a failing one
does not reach it, and every instruction but RUN and PS.TICK is silent. -/
theorem nothingIsSentInAReceivingIteration : Obligations.NothingIsSentInAReceivingIteration := by
  constructor
  · intro s t hbase hhalted hexec hcall
    obtain ⟨es, hes⟩ := exec_traceGrows .run s t hexec
    obtain ⟨hhalted', -⟩ | ⟨-, -, -, rfl⟩ := exec_run_next hexec
    · exact absurd hhalted' (by simp [hhalted])
    · exact ⟨es, hes.symm, (State.silent_iterate (s := s.freeze) hbase hcall).noTx hes.symm⟩
  · intro s t hstep
    obtain ⟨es, hes⟩ := step_traceGrows s t hstep
    refine ⟨es, hes.symm, ?_⟩
    obtain ⟨-, rfl⟩ | ⟨item, rest, hinbox, hitem⟩ := step_next s t hstep
    · exact .inl ((State.Silent.refl t).noTx hes.symm)
    · obtain hsilent | ⟨hidle, bs, i, rfl, hfetch, hi⟩ := stepItem_silent_or _ item t hitem
      · exact .inl (State.Silent.noTx (s := s) hsilent hes.symm)
      · refine .inr ⟨hidle, bs, rest, hinbox, ?_⟩
        obtain rfl | ⟨u, rfl⟩ := hi
        · exact .inl hfetch
        · exact .inr ⟨u, hfetch⟩

end Sys2Proof.Machine
end

section
/-! The sample accumulator (45_sample_accumulator.md): what SA.ACCEPT makes of a device (R260 to R263,
R270), and what a flush makes of the table for every list of answers (R264 to R268). A flush is
described one device at a time, by the answers its calls get; the table follows by one induction. -/

namespace Sys2Proof.Machine

/-! ### Accepting a record -/

theorem accept_of_getElem? {s : State} {i : Nat} {d : Device} (hd : s.devs[i]? = some d)
    (rec : TelemetryRecord) (t : Time) :
    s.accept i rec t
      = (s.setDevs (s.devs.set i (acceptDevice s.cfg i rec t d).1)).emit
          (acceptDevice s.cfg i rec t d).2 := by
  rw [State.accept, hd]

/-- The gate looks at the last sample alone, which creation does not move (R260, R261). -/
theorem sampleDue_createDevice (cfg : Config) (i : Nat) (rec : TelemetryRecord) (d : Device)
    (t : Time) : sampleDue cfg (createDevice cfg i rec d).1 t = sampleDue cfg d t := by
  rw [createDevice_spec]
  cases d.created <;> rfl

theorem createDevice_buf (cfg : Config) (i : Nat) (rec : TelemetryRecord) (d : Device) :
    (createDevice cfg i rec d).1.buf = d.buf := by
  rw [createDevice_spec]
  cases d.created <;> rfl

/-- The gate and what passes it, in terms of the entry before its creation. -/
theorem acceptDevice_spec (cfg : Config) (i : Nat) (rec : TelemetryRecord) (t : Time) (d : Device) :
    acceptDevice cfg i rec t d
      = (if sampleDue cfg d t then
           { (createDevice cfg i rec d).1 with
             lastSample := some t, total := some (totalOf rec),
             buf := if bufferHasRoom cfg d.buf then d.buf ++ [sampleOf cfg rec t] else d.buf }
         else (createDevice cfg i rec d).1,
         (createDevice cfg i rec d).2 ++ [.status (if sampleDue cfg d t then
             (if bufferHasRoom cfg d.buf then .sampleStored i else .bufferOverflow i)
           else .sampleGated i)]) := by
  simp only [acceptDevice, storeSample_spec, sampleDue_createDevice, createDevice_buf]

/-- Settles O41: SA.ACCEPT is the creation step followed by the gate, on the one entry, and a complete
record holds the serial and the energy they take from it. -/
theorem acceptCreatesGatesAndStores : Obligations.AcceptCreatesGatesAndStores := by
  intro s i rec t d hd hrec
  obtain ⟨raw, exp, unit, henergy, htotal⟩ := totalOf_spec rec hrec
  refine ⟨serialOf rec, raw, exp, unit, (serialOf_spec rec hrec).1, henergy, ?_⟩
  have hi : i < s.devs.length := (List.getElem?_eq_some_iff.1 hd).1
  simp only [exec_saAccept t hi hrec, accept_of_getElem? hd, acceptDevice_spec, createDevice_spec,
    sampleDue_iff, bufferHasRoom_iff, htotal, List.append_assoc]
  rfl

/-! ### Answers taken -/

/-- `calls` are the answers taken from the front of `as`, `Ok` past its end (log 7), and `left` is
what they leave. -/
structure TakesAnswers (as calls left : List Answer) : Prop where
  calls_eq : calls = (as ++ List.replicate calls.length Answer.ok).take calls.length
  left_eq : left = as.drop calls.length

theorem takesAnswers_nil (as : List Answer) : TakesAnswers as [] as := ⟨by simp, by simp⟩

theorem takesAnswers_takeAnswer (as : List Answer) :
    TakesAnswers as [(takeAnswer as).1] (takeAnswer as).2 :=
  ⟨by simpa using (answersTaken_succ 0 as).symm, takeAnswer_snd as⟩

namespace TakesAnswers
variable {as mid left calls calls' : List Answer}

theorem append (h : TakesAnswers as calls mid) (h' : TakesAnswers mid calls' left) :
    TakesAnswers as (calls ++ calls') left := by
  obtain ⟨hcalls, rfl⟩ := h
  obtain ⟨hcalls', rfl⟩ := h'
  constructor
  · rw [List.length_append, answersTaken_add, ← hcalls, ← hcalls']
  · rw [List.length_append, List.drop_drop]

/-- Calls no more than the answers listed get answers of the list. -/
theorem mem_of_mem (h : TakesAnswers as calls left) (hl : calls.length ≤ as.length) {a : Answer}
    (ha : a ∈ calls) : a ∈ as := by
  rw [h.calls_eq, List.take_append_of_le_length hl] at ha
  exact List.mem_of_mem_take ha

end TakesAnswers

/-! ### One device of a flush -/

namespace Device

/-- Whether a flush hands the buffer over (R264, R265). -/
def persists (d : Device) : Bool := d.created && !d.buf.isEmpty

/-- Whether the total differs from the last one reported (R264, R266). -/
def totalChanged (d : Device) : Bool :=
  d.created && d.total.isSome && decide (d.lastReported ≠ d.total)

/-- The answers of the persist step, for the answer `p` to its call. -/
def persistCalls (p : Answer) (d : Device) : List Answer := if d.persists = true then [p] else []

/-- The output of the persist step (R265, R309). -/
def persistEvents (i : Nat) (p : Answer) (d : Device) : List OutEvent :=
  if d.persists = true then
    .persist i d.serial d.buf :: (if p = .ok then [] else [.status (.persistFailed i)])
  else []

/-- The entry after the persist step (R265). -/
def afterPersist (p : Answer) (d : Device) : Device :=
  { d with buf := if d.persists = true ∧ p = .ok then [] else d.buf }

variable (cfg : Config)

/-- The answers of the report step, for the answer `r` to its call. -/
def reportCalls (r : Answer) (d : Device) : List Answer :=
  if d.totalChanged = true ∧ cfg.reporterPresent = true then [r] else []

/-- The output of the report step (R266, R309). -/
def reportEvents (i : Nat) (r : Answer) (d : Device) : List OutEvent :=
  match d.total with
  | none => []
  | some w =>
    if d.totalChanged = true ∧ cfg.reporterPresent = true then
      .reportTotal i w :: (if r = .ok then [] else [.status (.reportFailed i)])
    else []

/-- The entry after the report step (R266). -/
def afterReport (r : Answer) (d : Device) : Device :=
  { d with
    lastReported :=
      if d.totalChanged = true ∧ (cfg.reporterPresent = true → r = .ok) then d.total
      else d.lastReported }

/-- The answers of a device's calls in a flush with report, for the answers `a` to its two calls. -/
def flushCalls (a : Answer × Answer) (d : Device) : List Answer :=
  d.persistCalls a.1 ++ d.reportCalls cfg a.2

/-- The output of a flush with report for one device: the report step follows whatever became of the
persist step (R264). -/
def flushEvents (i : Nat) (a : Answer × Answer) (d : Device) : List OutEvent :=
  d.persistEvents i a.1 ++ d.reportEvents cfg i a.2

/-- The entry after a flush with report. -/
def afterFlush (a : Answer × Answer) (d : Device) : Device := (d.afterPersist a.1).afterReport cfg a.2

end Device

/-! What the answers determine of a device, case by case. -/

namespace Device
variable {d : Device}

theorem persists_of_not_created (h : d.created = false) : d.persists = false := by
  simp [persists, h]

theorem persists_iff (h : d.created = true) : d.persists = true ↔ d.buf ≠ [] := by
  simp [persists, h]

theorem totalChanged_of_not_created (h : d.created = false) : d.totalChanged = false := by
  simp [totalChanged, h]

theorem totalChanged_iff (h : d.created = true) :
    d.totalChanged = true ↔ d.total ≠ none ∧ d.lastReported ≠ d.total := by
  simp [totalChanged, h, Option.isSome_iff_ne_none]

section
variable (h : d.persists = false) (p : Answer)
include h

theorem persistCalls_of_not_persists : d.persistCalls p = [] := by simp [persistCalls, h]

theorem persistEvents_of_not_persists (i : Nat) : d.persistEvents i p = [] := by
  simp [persistEvents, h]

theorem afterPersist_of_not_persists : d.afterPersist p = d := by
  cases d
  simp [afterPersist, h]

end

/-- A failed persist call keeps the buffer (R265). -/
theorem afterPersist_fail (d : Device) : d.afterPersist .fail = d := by
  cases d
  simp [afterPersist]

section
variable (cfg : Config) (h : d.totalChanged = false) (r : Answer)
include h

theorem reportCalls_of_not_changed : d.reportCalls cfg r = [] := by simp [reportCalls, h]

theorem reportEvents_of_not_changed (i : Nat) : d.reportEvents cfg i r = [] := by
  cases htotal : d.total <;> simp [reportEvents, h, htotal]

theorem afterReport_of_not_changed : d.afterReport cfg r = d := by
  cases d
  simp [afterReport, h]

end

/-- A failed report call notes nothing (R266). -/
theorem afterReport_fail {cfg : Config} (hrep : cfg.reporterPresent = true) (d : Device) :
    d.afterReport cfg .fail = d := by
  cases d
  simp [afterReport, hrep]

/-- With no reporter a changed total is noted at once (R266). -/
theorem afterReport_of_no_reporter {cfg : Config} (hrep : cfg.reporterPresent = false)
    (h : d.totalChanged = true) (r : Answer) :
    d.afterReport cfg r = { d with lastReported := d.total } := by
  simp [afterReport, hrep, h]

end Device

/-- The persist step of a created device, by the answer to its call. -/
theorem persistStep_answered (i : Nat) (d : Device) (as : List Answer) (hc : d.created = true) :
    ∃ p left, persistStep i d as = ⟨d.afterPersist p, d.persistEvents i p, left⟩
      ∧ TakesAnswers as (d.persistCalls p) left := by
  obtain ⟨hbuf, hstep⟩ | ⟨hbuf, hanswer, hstep⟩ | ⟨hbuf, hanswer, hstep⟩ := persistStep_spec i d as
  · have hpersists : d.persists = false := by simp [Device.persists, hbuf]
    refine ⟨.ok, as, ?_, ?_⟩
    · rw [hstep, Device.afterPersist_of_not_persists hpersists,
        Device.persistEvents_of_not_persists hpersists]
    · rw [Device.persistCalls_of_not_persists hpersists]
      exact takesAnswers_nil as
  all_goals
    have hpersists : d.persists = true := (Device.persists_iff hc).2 hbuf
    refine ⟨(takeAnswer as).1, (takeAnswer as).2, ?_, ?_⟩
    · simp [hstep, hanswer, Device.afterPersist, Device.persistEvents, hpersists]
    · simpa [Device.persistCalls, hpersists] using takesAnswers_takeAnswer as

/-- The report step of a created device, by the answer to its call. -/
theorem reportStep_answered (cfg : Config) (i : Nat) (d : Device) (as : List Answer)
    (hc : d.created = true) :
    ∃ r left, reportStep cfg i d as = ⟨d.afterReport cfg r, d.reportEvents cfg i r, left⟩
      ∧ TakesAnswers as (d.reportCalls cfg r) left := by
  obtain ⟨hsame, hstep⟩ | ⟨w, htotal, hne, hreport⟩ := reportStep_spec cfg i d as
  · have hchanged : d.totalChanged = false := by
      rw [← Bool.not_eq_true, Device.totalChanged_iff hc]
      tauto
    refine ⟨.ok, as, ?_, ?_⟩
    · rw [hstep, Device.afterReport_of_not_changed cfg hchanged,
        Device.reportEvents_of_not_changed cfg hchanged]
    · rw [Device.reportCalls_of_not_changed cfg hchanged]
      exact takesAnswers_nil as
  have hchanged : d.totalChanged = true := (Device.totalChanged_iff hc).2 (by simp [htotal, hne])
  obtain ⟨hrep, hstep⟩ | ⟨hrep, hanswer, hstep⟩ | ⟨hrep, hanswer, hstep⟩ := hreport
  · refine ⟨.ok, as, ?_, ?_⟩
    · simp [hstep, Device.afterReport, Device.reportEvents, hchanged, htotal, hrep]
    · simpa [Device.reportCalls, hrep] using takesAnswers_nil as
  · refine ⟨.ok, (takeAnswer as).2, ?_, ?_⟩
    · simp [hstep, Device.afterReport, Device.reportEvents, hchanged, htotal, hrep]
    · simpa [Device.reportCalls, hchanged, hrep, hanswer] using takesAnswers_takeAnswer as
  · refine ⟨.fail, (takeAnswer as).2, ?_, ?_⟩
    · simp [hstep, Device.afterReport_fail hrep, Device.reportEvents, hchanged, htotal, hrep]
    · simpa [Device.reportCalls, hchanged, hrep, hanswer] using takesAnswers_takeAnswer as

section
variable (cfg : Config) (i : Nat) (d : Device) (as : List Answer)

/-- One device of a final flush: the persist step (R267). -/
theorem flushDevice_final_answered :
    ∃ p left, flushDevice cfg false i d as = ⟨d.afterPersist p, d.persistEvents i p, left⟩
      ∧ TakesAnswers as (d.persistCalls p) left := by
  cases hc : d.created with
  | false =>
    have hpersists := Device.persists_of_not_created hc
    refine ⟨.ok, as, ?_, ?_⟩
    · simp [flushDevice, hc, Device.afterPersist_of_not_persists hpersists,
        Device.persistEvents_of_not_persists hpersists]
    · rw [Device.persistCalls_of_not_persists hpersists]
      exact takesAnswers_nil as
  | true => simpa [flushDevice, hc] using persistStep_answered i d as hc

/-- One device of a flush with report: both steps, one after the other (R264). -/
theorem flushDevice_answered :
    ∃ a left, flushDevice cfg true i d as = ⟨d.afterFlush cfg a, d.flushEvents cfg i a, left⟩
      ∧ TakesAnswers as (d.flushCalls cfg a) left := by
  cases hc : d.created with
  | false =>
    have hpersists := Device.persists_of_not_created hc
    have hchanged := Device.totalChanged_of_not_created hc
    refine ⟨(.ok, .ok), as, ?_, ?_⟩
    · simp [flushDevice, hc, Device.afterFlush, Device.flushEvents,
        Device.afterPersist_of_not_persists hpersists,
        Device.persistEvents_of_not_persists hpersists,
        Device.afterReport_of_not_changed cfg hchanged,
        Device.reportEvents_of_not_changed cfg hchanged]
    · rw [Device.flushCalls, Device.persistCalls_of_not_persists hpersists,
        Device.reportCalls_of_not_changed cfg hchanged]
      exact takesAnswers_nil as
  | true =>
    obtain ⟨p, mid, hpersist, hp⟩ := persistStep_answered i d as hc
    obtain ⟨r, left, hreport, hr⟩ := reportStep_answered cfg i (d.afterPersist p) mid hc
    refine ⟨(p, r), left, ?_, hp.append hr⟩
    simp only [flushDevice, hc, if_true, hpersist, hreport]
    rfl

end

/-! ### The whole table -/

section
variable {α : Type} {cfg : Config} {report : Bool} (after : α → Device → Device)
  (events : Nat → α → Device → List OutEvent) (calls : α → Device → List Answer)

/-- What the answers determine for every device, they determine for the table: the devices take their
answers one after the other, in ascending index (R268). -/
theorem flushFrom_answered
    (hdevice : ∀ i d as, ∃ a left, flushDevice cfg report i d as = ⟨after a d, events i a d, left⟩
      ∧ TakesAnswers as (calls a d) left) (i : Nat) (ds : List Device) (as : List Answer) :
    ∃ (ans : Nat → α) (left : List Answer),
      flushFrom cfg report i ds as
          = ((ds.zipIdx i).map (fun e => after (ans e.2) e.1),
             (ds.zipIdx i).flatMap (fun e => events e.2 (ans e.2) e.1), left)
        ∧ TakesAnswers as ((ds.zipIdx i).flatMap (fun e => calls (ans e.2) e.1)) left := by
  induction ds generalizing i as with
  | nil =>
    obtain ⟨a, -⟩ := hdevice i (Device.reset 0#8) as
    exact ⟨fun _ => a, as, rfl, takesAnswers_nil as⟩
  | cons d ds ih =>
    obtain ⟨a, mid, hd, hcalls⟩ := hdevice i d as
    obtain ⟨ans, left, hds, hrest⟩ := ih (i + 1) mid
    have hlater : ∀ e ∈ ds.zipIdx (i + 1), Function.update ans i a e.2 = ans e.2 := by
      intro e he
      have hle : i + 1 ≤ e.2 := List.le_snd_of_mem_zipIdx he
      exact Function.update_of_ne (Nat.ne_of_gt hle) a ans
    refine ⟨Function.update ans i a, left, ?_, ?_⟩
    · rw [List.zipIdx_cons, List.map_cons, List.flatMap_cons, Function.update_self,
        List.map_congr_left fun e he => congrArg (after · e.1) (hlater e he),
        List.flatMap_congr fun e he => congrArg (events e.2 · e.1) (hlater e he)]
      simp only [flushFrom, hd, hds]
    · rw [List.zipIdx_cons, List.flatMap_cons, Function.update_self,
        List.flatMap_congr fun e he => congrArg (calls · e.1) (hlater e he)]
      exact hcalls.append hrest

end

theorem flush_ret_of_flushFrom {s : State} {report : Bool} {ds : List Device} {es : List OutEvent}
    {left : List Answer} (t : Time)
    (h : flushFrom s.cfg report 0 s.devs s.env.answers = (ds, es, left)) :
    (s.flush report t).ret .nothing
      = { s with
          devs := ds
          clk := { s.clk with lastFlush := some t }
          env := { s.env with answers := left, trace := s.env.trace ++ es }
          result := .nothing } := by
  rw [State.flush, h]
  rfl

/-- SA.FLUSH, by the answers to the calls of each device. -/
theorem exec_saFlush_answered (s : State) (t : Time) :
    ∃ (ans : Nat → Answer × Answer) (left : List Answer),
      TakesAnswers s.env.answers
          (s.devs.zipIdx.flatMap fun e => e.1.flushCalls s.cfg (ans e.2)) left
        ∧ exec (.saFlush t) s
          = .next { s with
              devs := s.devs.zipIdx.map fun e => e.1.afterFlush s.cfg (ans e.2)
              clk := { s.clk with lastFlush := some t }
              env := { s.env with
                        answers := left
                        trace := s.env.trace
                          ++ s.devs.zipIdx.flatMap fun e => e.1.flushEvents s.cfg e.2 (ans e.2) }
              result := .nothing } := by
  obtain ⟨ans, left, hflush, hcalls⟩ := flushFrom_answered _ _ _ (flushDevice_answered s.cfg) 0
    s.devs s.env.answers
  exact ⟨ans, left, hcalls, congrArg Host.Outcome.next (flush_ret_of_flushFrom t hflush)⟩

/-- Settles O42, with the answers of each device's two calls as the two functions. -/
theorem flushDrainsAndReports : Obligations.FlushDrainsAndReports := by
  intro s t
  obtain ⟨ans, left, ⟨hcalls, rfl⟩, hexec⟩ := exec_saFlush_answered s t
  exact ⟨fun k => (ans k).1, fun k => (ans k).2, hcalls, hexec⟩

/-- Settles O44: one device of a final flush is its persist step. -/
theorem finalFlushReportsNothing : Obligations.FinalFlushReportsNothing := by
  intro s t
  obtain ⟨p, left, hflush, hcalls, rfl⟩ := flushFrom_answered _ _ _
    (flushDevice_final_answered s.cfg) 0 s.devs s.env.answers
  exact ⟨p, hcalls, congrArg Host.Outcome.next (flush_ret_of_flushFrom t hflush)⟩

/-! ### A flush whose calls all fail (R309) -/

namespace Device

/-- The entry after a flush whose calls all fail: no reporter is asked where there is none, so that
there alone the total is noted (R266). -/
def afterFailedFlush (cfg : Config) (d : Device) : Device :=
  if d.created = true ∧ d.total ≠ none ∧ cfg.reporterPresent = false then
    { d with lastReported := d.total }
  else d

/-- The output of a flush whose calls all fail, for one device: each call is followed by its status
(R309). -/
def failedFlushEvents (cfg : Config) (i : Nat) (d : Device) : List OutEvent :=
  if d.created then
    (if d.buf = [] then [] else [.persist i d.serial d.buf, .status (.persistFailed i)])
      ++ (match d.total with
          | none => []
          | some w =>
            if cfg.reporterPresent = true ∧ d.lastReported ≠ some w then
              [.reportTotal i w, .status (.reportFailed i)]
            else [])
  else []

end Device

theorem length_flushCalls_le (cfg : Config) (a : Answer × Answer) (d : Device) :
    (d.flushCalls cfg a).length ≤ 2 := by
  have hpersist : (d.persistCalls a.1).length ≤ 1 := by
    unfold Device.persistCalls
    split <;> simp
  have hreport : (d.reportCalls cfg a.2).length ≤ 1 := by
    unfold Device.reportCalls
    split <;> simp
  rw [Device.flushCalls, List.length_append]
  omega

theorem length_flatMap_flushCalls_le (cfg : Config) (ans : Nat → Answer × Answer)
    (es : List (Device × Nat)) :
    (es.flatMap fun e => e.1.flushCalls cfg (ans e.2)).length ≤ 2 * es.length := by
  induction es with
  | nil => simp
  | cons e es ih =>
    have hle := length_flushCalls_le cfg (ans e.2) e.1
    rw [List.flatMap_cons, List.length_append, List.length_cons]
    omega

section
variable {cfg : Config} {a : Answer × Answer} {d : Device}
  (hfail : ∀ b ∈ d.flushCalls cfg a, b = .fail)
include hfail

theorem persist_failed (h : d.persists = true) : a.1 = .fail :=
  hfail _ (by simp [Device.flushCalls, Device.persistCalls, h])

theorem report_failed (h : d.totalChanged = true) (hrep : cfg.reporterPresent = true) :
    a.2 = .fail :=
  hfail _ (by simp [Device.flushCalls, Device.reportCalls, h, hrep])

theorem afterFlush_of_failed : d.afterFlush cfg a = d.afterFailedFlush cfg := by
  have hpersist : d.afterPersist a.1 = d := by
    cases h : d.persists with
    | false => exact Device.afterPersist_of_not_persists h _
    | true => rw [persist_failed hfail h, Device.afterPersist_fail]
  rw [Device.afterFlush, hpersist, Device.afterFailedFlush]
  cases hchanged : d.totalChanged with
  | false =>
    rw [Device.afterReport_of_not_changed cfg hchanged]
    split
    · next h =>
      obtain ⟨hc, htotal, -⟩ := h
      have hsame : d.lastReported = d.total := by
        by_contra hne
        exact absurd ((Device.totalChanged_iff hc).2 ⟨htotal, hne⟩) (by simp [hchanged])
      exact congrArg (fun w => { d with lastReported := w }) hsame
    · rfl
  | true =>
    have hc : d.created = true := by
      by_contra h
      simp [Device.totalChanged_of_not_created (Bool.not_eq_true _ ▸ h)] at hchanged
    obtain ⟨htotal, -⟩ := (Device.totalChanged_iff hc).1 hchanged
    cases hrep : cfg.reporterPresent with
    | false => rw [Device.afterReport_of_no_reporter hrep hchanged, if_pos ⟨hc, htotal, rfl⟩]
    | true =>
      rw [report_failed hfail hchanged hrep, Device.afterReport_fail hrep, if_neg (by simp)]

/-- A failed persist call is followed by its status (R265, R309). -/
theorem persistEvents_failed (hc : d.created = true) (i : Nat) :
    d.persistEvents i a.1
      = if d.buf = [] then [] else [.persist i d.serial d.buf, .status (.persistFailed i)] := by
  split
  · next hbuf =>
    exact Device.persistEvents_of_not_persists (by simp [Device.persists, hbuf]) _ _
  · next hbuf =>
    have hpersists := (Device.persists_iff hc).2 hbuf
    simp [Device.persistEvents, hpersists, persist_failed hfail hpersists]

/-- A failed report call is followed by its status (R266, R309). -/
theorem reportEvents_failed (hc : d.created = true) (i : Nat) {w : Nat} (htotal : d.total = some w) :
    d.reportEvents cfg i a.2
      = if cfg.reporterPresent = true ∧ d.lastReported ≠ some w then
          [.reportTotal i w, .status (.reportFailed i)]
        else [] := by
  have hchanged : d.totalChanged = true ↔ d.lastReported ≠ some w := by
    simp [Device.totalChanged_iff hc, htotal]
  split
  · next h =>
    obtain ⟨hrep, hne⟩ := h
    have hanswer := report_failed hfail (hchanged.2 hne) hrep
    simp [Device.reportEvents, htotal, hchanged.2 hne, hrep, hanswer]
  · next h =>
    rw [← hchanged, and_comm] at h
    simp only [Device.reportEvents, htotal, if_neg h]

theorem flushEvents_of_failed (i : Nat) : d.flushEvents cfg i a = d.failedFlushEvents cfg i := by
  rw [Device.failedFlushEvents]
  cases hc : d.created with
  | false =>
    simp [Device.flushEvents, Device.persistEvents_of_not_persists, Device.persists_of_not_created,
      Device.reportEvents_of_not_changed, Device.totalChanged_of_not_created, hc]
  | true =>
    rw [Device.flushEvents, persistEvents_failed hfail hc, if_pos rfl]
    cases htotal : d.total with
    | none => simp [Device.reportEvents, htotal]
    | some w => rw [reportEvents_failed hfail hc i htotal]

end

/-- Settles O43: with every listed answer `Fail`, and enough of them for two calls a device, every call
of the flush of O42 is answered `Fail`. -/
theorem failedFlushKeepsBuffersAndTotals : Obligations.FailedFlushKeepsBuffersAndTotals := by
  intro s t hanswers henough
  obtain ⟨ans, left, hcalls, hexec⟩ := exec_saFlush_answered s t
  have hlength : _ ≤ s.env.answers.length :=
    (length_flatMap_flushCalls_le s.cfg ans s.devs.zipIdx).trans (by simpa using henough)
  have hfail : ∀ e ∈ s.devs.zipIdx, ∀ b ∈ e.1.flushCalls s.cfg (ans e.2), b = .fail :=
    fun e he b hb =>
      hanswers b (hcalls.mem_of_mem hlength (List.mem_flatMap.2 ⟨e, he, hb⟩))
  have hdevs (g : Device → Device) : s.devs.zipIdx.map (fun e => g e.1) = s.devs.map g := by
    rw [← Function.comp_def g Prod.fst, ← List.map_map, List.zipIdx_map_fst]
  refine ⟨left, hexec.trans ?_⟩
  rw [List.map_congr_left fun e he => afterFlush_of_failed (hfail e he),
    List.flatMap_congr fun e he => flushEvents_of_failed (hfail e he) e.2,
    hdevs (Device.afterFailedFlush s.cfg)]
  rfl

end Sys2Proof.Machine
end

section
/-! Who moves sample times, totals and serials (10_state.md R39, R42, R44; 45_sample_accumulator.md R261,
R272): SA.ACCEPT, the two instructions that contain it, and RESET; every other instruction keeps them. -/

namespace Sys2Proof.Machine

/-! ### What is kept -/

/-- What SA.ACCEPT alone writes of an entry, with the address it stands for. -/
def Device.sampling (d : Device) : Byte × Bool × Option (List Byte) × Option Time × Option Nat :=
  (d.id, d.created, d.serial, d.lastSample, d.total)

/-- Every entry's creation, serial, sample time and total are as before. -/
def State.KeepsSampling (s t : State) : Prop :=
  t.devs.map Device.sampling = s.devs.map Device.sampling

namespace State
variable {s t u : State}

@[simp] theorem KeepsSampling.refl (s : State) : s.KeepsSampling s := rfl

theorem KeepsSampling.trans (h : s.KeepsSampling t) (h' : t.KeepsSampling u) : s.KeepsSampling u :=
  Eq.trans h' h

@[simp] theorem keepsSampling_ret (r : Result) : s.KeepsSampling (t.ret r) ↔ s.KeepsSampling t :=
  Iff.rfl

variable (s)

@[simp] theorem keepsSampling_emit (es : List OutEvent) : s.KeepsSampling (s.emit es) := rfl

@[simp] theorem keepsSampling_fail (st : Status) : s.KeepsSampling (s.fail st) := rfl

/-- A flush empties buffers and notes totals as reported, and leaves the rest of an entry (R265,
R266). -/
@[simp] theorem keepsSampling_flush (report : Bool) (t : Time) :
    s.KeepsSampling (s.flush report t) := by
  have hkeeps := congrArg (List.map fun (id, _, created, serial, lastSample, total) =>
    (id, created, serial, lastSample, total)) (flushFrom_keeps s.cfg report 0 s.devs s.env.answers)
  rw [List.map_map, List.map_map] at hkeeps
  exact hkeeps

/-- A scheduler evaluation writes the scheduler state alone (44_poll_scheduler.md R247). -/
@[simp] theorem keepsSampling_tick (t : Time) : s.KeepsSampling (s.tick t) := by
  obtain ⟨acc, tb, htick, -⟩ := tick_spec s t
  rw [KeepsSampling, htick]
  exact List.map_map

@[simp] theorem keepsSampling_fatalStop : s.KeepsSampling s.fatalStop :=
  s.keepsSampling_flush false s.loop.t

/-- A frame in hand keeps them when what takes its header does. -/
theorem keepsSampling_onValid (c : List Byte) (k : State → Header → State)
    (hk : ∀ (s : State) (hdr : Header), s.KeepsSampling (k s hdr)) :
    s.KeepsSampling (s.onValid c k) := by
  have hstart : s.KeepsSampling
      (s.stampTraffic.setAcc (validateAcc s.stampTraffic.cfg.crc c s.stampTraffic.crcAcc)) := rfl
  refine hstart.trans ?_
  dsimp only [onValid]
  split
  · exact keepsSampling_fail _ _
  · exact hk _ _
  · exact hk _ _

end State

/-! ### The instructions -/

section
variable (s : State)

theorem frame_keepsSampling (c : List Byte) (k : State → Header → State) (ok : Bool)
    (hk : ∀ (s : State) (hdr : Header), s.KeepsSampling (k s hdr)) :
    EveryNext s.KeepsSampling (s.inLoop ok (fun s => (s.onValid c k).ret .nothing)) :=
  everyNext_inLoop _ s _ _ (.refl s) (s.keepsSampling_onValid c k hk)

theorem execShutdown_keepsSampling : EveryNext s.KeepsSampling (execShutdown s) := by
  simp only [execShutdown, everyNext_ite, everyNext_refused, everyNext_next]
  exact ⟨fun _ => .refl s, fun _ => ⟨fun _ => trivial, fun _ =>
    s.sampleNow.keepsSampling_flush false s.env.now⟩⟩

theorem frByteOp_keepsSampling (row : FrRow) (f : Reader → Reader × Option ReadResult) :
    EveryNext s.KeepsSampling (frByteOp row f s) := by
  simp [frByteOp, State.KeepsSampling]

theorem execTcDecode_keepsSampling (c : List Byte) (hdr : Header) :
    EveryNext s.KeepsSampling (execTcDecode c hdr s) := by
  unfold execTcDecode
  cases decodeReply s.cfg c hdr <;> simp [State.KeepsSampling]

end

/-- The instructions that may move a sample time, a total or a serial: RESET, SA.ACCEPT, and RUN and
FRAME.REPLY.TELEMETRY that contain it (R272). -/
def MovesSampling (i : Instr) : Prop :=
  i = .reset ∨ i = .run ∨ (∃ k rec u, i = .saAccept k rec u)
    ∨ ∃ id data crc term, i = .frameReplyTelemetry id data crc term

theorem exec_keepsSampling (i : Instr) (s : State) (hi : ¬ MovesSampling i) :
    EveryNext s.KeepsSampling (exec i s) := by
  cases i with
  | reset => exact absurd (.inl rfl) hi
  | run => exact absurd (.inr (.inl rfl)) hi
  | saAccept k rec u => exact absurd (.inr (.inr (.inl ⟨k, rec, u, rfl⟩))) hi
  | frameReplyTelemetry id data crc term =>
    exact absurd (.inr (.inr (.inr ⟨id, data, crc, term, rfl⟩))) hi
  | frameReqTelemetry | frameReq =>
    exact frame_keepsSampling s _ _ _ fun s _ => s.keepsSampling_emit _
  | frameReplyBadlen | frameReplyOther =>
    exact frame_keepsSampling s _ _ _ fun s _ => s.keepsSampling_fail _
  | shutdown => exact execShutdown_keepsSampling s
  | fatal => simp [exec, execFatal]
  | saFlush | saFinalFlush => simp [exec, execSaFlush, execSaFinalFlush]
  | psTick t => simp [exec, execPsTick]
  | psNoteTraffic t => simp [exec, execPsNoteTraffic, State.KeepsSampling]
  | crcReset | crcByte | crcBlock | crcValue | crcCheck =>
    simp [exec, execCrcReset, execCrcByte, execCrcBlock, execCrcValue, execCrcCheck,
      State.KeepsSampling]
  | frByteHunt | frByteKind | frByteHdr | frByteBody | frByteLast =>
    exact frByteOp_keepsSampling s _ _
  | frStart | frTimeout | frFault =>
    simp [exec, execFrStart, execFrTimeout, execFrFault, State.KeepsSampling]
  | fvValidate | fvHeader =>
    simp [exec, execFvValidate, execFvHeader, State.KeepsSampling]
  | tcDecode c hdr => exact execTcDecode_keepsSampling s c hdr
  | tcUnpackAscii | tcUnpackU8 | tcUnpackU16 | tcUnpackU32 | tcUnpackRaw32 | tcUnpackPad =>
    simp [exec, execTcUnpackAscii, execTcUnpackU8, execTcUnpackU16, execTcUnpackU32,
      execTcUnpackRaw32, execTcUnpackPad]
  | tcScale | tcEncode => simp [exec, execTcScale, execTcEncode, State.KeepsSampling]

/-- Settles O58: an instruction is one of the four, or keeps every entry's sampling. -/
theorem onlyAcceptMovesSampleTimes : Obligations.OnlyAcceptMovesSampleTimes := by
  intro i s t hexec
  by_cases hi : MovesSampling i
  · obtain hreset | hrun | haccept | hreply := hi
    · exact .inl hreset
    · exact .inr (.inl hrun)
    · exact .inr (.inr (.inl haccept))
    · exact .inr (.inr (.inr (.inl hreply)))
  · exact .inr (.inr (.inr (.inr (exec_keepsSampling i s hi t hexec))))

end Sys2Proof.Machine
end

section
/-! The control loop (46_control_loop.md): the operations of a reader call, what an iteration keeps and
what it is made of (R280 to R285), the two stops (R286, R288), and who stops the block (R289). -/

namespace Sys2Proof.Machine

/-! ### The loop's gate (R287) -/

theorem inLoop_of_halted {s : State} (ok : Bool) (k : State → State) (h : s.loop.halted = true) :
    s.inLoop ok k = .next s :=
  if_pos h

/-- Settles O51: RUN and the frames stop at the loop's gate, SHUTDOWN at its own test. -/
theorem haltedBlockDoesNothing : Obligations.HaltedBlockDoesNothing := by
  intro s i hhalted hi
  obtain rfl | rfl | hframe := hi
  · exact inLoop_of_halted _ (fun s => s.freeze.iterate.ret .nothing) hhalted
  · exact if_pos hhalted
  · obtain ⟨k, hexec⟩ := exec_frame i s hframe
    exact hexec.trans (inLoop_of_halted _ _ hhalted)

/-! ### The two stops -/

theorem exec_shutdown {s : State} (hup : s.loop.halted = false) (hidle : s.fr.phase = .idle) :
    exec .shutdown s
      = .next ((((s.sampleNow.flush false s.env.now).setLoop
          { (s.sampleNow.flush false s.env.now).loop with halted := true }).emit
            [.status .shutdownDone]).ret .nothing) := by
  rw [exec, execShutdown, if_neg (by simp [hup]), if_neg (not_not.2 hidle)]
  rfl

/-- Settles O52. -/
theorem shutdownFlushesAndHalts : Obligations.ShutdownFlushesAndHalts := fun s hup hidle =>
  ⟨(s.sampleNow.flush false s.env.now).ret .nothing, rfl, exec_shutdown hup hidle⟩

/-- Settles O53. -/
theorem fatalFlushesAndHalts : Obligations.FatalFlushesAndHalts := fun s =>
  ⟨(s.flush false s.loop.t).ret .nothing, rfl, rfl⟩

/-! ### The operations of a reader call (R150) -/

theorem readerOps_next {e : InEvent} {es : List InEvent} {s t : State}
    (h : exec (eventInstr s.fr e) s = .next (t.ret .nothing)) :
    readerOps (e :: es) s = readerOps es (t.ret .nothing) := by
  simp only [readerOps, h, State.ret_result]

theorem readerOps_result {e : InEvent} {es : List InEvent} {s t : State} {res : ReadResult}
    (h : exec (eventInstr s.fr e) s = .next (t.ret (.reader res))) :
    readerOps (e :: es) s = (.next (t.ret (.reader res)), es) := by
  simp only [readerOps, h, State.ret_result]

/-- The operations of a reader call, one per event, give the call's registers, result and events
left. -/
theorem readerOps_eq_readCall (events : List InEvent) (s : State) (hok : readerOk s.fr = true)
    (hcall : s.fr.phase ≠ .idle) :
    readerOps events s
      = (.next ((s.setFr (readCall events s.fr).2.2).ret (.reader (readCall events s.fr).1)),
          (readCall events s.fr).2.1) := by
  induction events generalizing s with
  | nil => rw [readerOps, exec_frTimeout hcall, readCall]
  | cons e es ih =>
    cases e with
    | timeout => exact readerOps_result (exec_frTimeout hcall)
    | transportFault => exact readerOps_result (exec_frFault hcall)
    | byte b =>
      have hexec := exec_eventInstr_byte s b hcall hok
      obtain ⟨hok', -, hend⟩ := readerByte_spec b s.fr hok hcall
      rcases hbyte : readerByte b s.fr with ⟨r, res⟩
      rw [hbyte] at hexec hok' hend
      cases res with
      | some res => rw [readerOps_result hexec, readCall_byte_result es hbyte]
      | none =>
        have hon : r.phase ≠ .idle := by simpa using hend
        rw [readerOps_next hexec, readCall_byte_next es hbyte]
        exact ih ((s.setFr r).ret .nothing) hok' hon

/-! ### The reader's part of the state in steps 2 to 7 -/

/-- The reader's registers and the events behind the call are left alone. -/
structure State.KeepsReader (s t : State) : Prop where
  fr : t.fr = s.fr
  rx : t.env.rx = s.env.rx

namespace State
variable {s t u : State}

theorem KeepsReader.refl (s : State) : s.KeepsReader s := ⟨rfl, rfl⟩

theorem KeepsReader.trans (h : s.KeepsReader t) (h' : t.KeepsReader u) : s.KeepsReader u :=
  ⟨h'.fr.trans h.fr, h'.rx.trans h.rx⟩

variable (s)

theorem keepsReader_accept (i : Nat) (rec : TelemetryRecord) (t : Time) :
    s.KeepsReader (s.accept i rec t) := by
  obtain ⟨ds, es, h, -⟩ := accept_spec s i rec t
  exact h ▸ ⟨rfl, rfl⟩

theorem keepsReader_flush (report : Bool) (t : Time) : s.KeepsReader (s.flush report t) := by
  obtain ⟨ds, left, es, h, -⟩ := flush_spec s report t
  exact h ▸ ⟨rfl, rfl⟩

theorem keepsReader_tick (t : Time) : s.KeepsReader (s.tick t) := by
  obtain ⟨acc, tb, h, -⟩ := tick_spec s t
  exact h ▸ ⟨rfl, rfl⟩

theorem keepsReader_deliver (id : Byte) : s.KeepsReader (s.deliver id) := by
  cases hdev : devIndex s.devs id with
  | none => exact deliver_unknown hdev ▸ ⟨rfl, rfl⟩
  | some i =>
    have haccept := (s.emit [.record i s.record]).keepsReader_accept i s.record s.loop.t
    exact deliver_known hdev ▸ ⟨haccept.fr, haccept.rx⟩

theorem keepsReader_dispatchReply (c : List Byte) (hdr : Header) :
    s.KeepsReader (s.dispatchReply c hdr) := by
  unfold dispatchReply
  split
  · case _ rec _ => exact .trans (t := s.setRecord rec) ⟨rfl, rfl⟩ (keepsReader_deliver _ _)
  · exact ⟨rfl, rfl⟩
  · exact ⟨rfl, rfl⟩

theorem keepsReader_receive (c : List Byte) : s.KeepsReader (s.receive c) := by
  dsimp only [receive, dispatch]
  split
  · exact ⟨rfl, rfl⟩
  · exact ⟨rfl, rfl⟩
  · exact .trans (t := s.stampTraffic.setAcc _) ⟨rfl, rfl⟩ (keepsReader_dispatchReply _ _ _)

theorem keepsReader_finishIteration : s.KeepsReader s.finishIteration := by
  refine (s.keepsReader_tick s.loop.t).trans ?_
  dsimp only [finishIteration]
  split
  · exact keepsReader_flush _ _ _
  · exact .refl _

theorem keepsReader_afterCall (r : ReadResult) : s.KeepsReader (s.afterCall r) := by
  cases r with
  | fault =>
    have hflush := s.sampleNow.keepsReader_flush false s.env.now
    exact ⟨hflush.fr, hflush.rx⟩
  | candidate c => exact (s.keepsReader_receive c).trans (keepsReader_finishIteration _)
  | noDataFraming =>
    exact .trans (t := s.stampTraffic.fail _) ⟨rfl, rfl⟩ (keepsReader_finishIteration _)
  | noDataTimeout =>
    exact .trans (t := s.sampleNow.fail _) ⟨rfl, rfl⟩ (keepsReader_finishIteration _)

/-! ### The loop's registers in an iteration -/

@[simp] theorem flush_loop (report : Bool) (t : Time) : (s.flush report t).loop = s.loop := rfl

@[simp] theorem tick_loop (t : Time) : (s.tick t).loop = s.loop := by
  obtain ⟨acc, tb, h, -⟩ := tick_spec s t
  rw [h]

@[simp] theorem finishIteration_loop : s.finishIteration.loop = s.loop := by
  dsimp only [finishIteration]
  split <;> simp

/-- An iteration stamps the time, and one that lost the transport stops the block (R282, R288). -/
theorem afterCall_loop (r : ReadResult) :
    (s.afterCall r).loop
      = if r = .fault then { halted := true, fatal := true, t := s.env.now }
        else { s.loop with t := s.env.now } := by
  cases r with
  | fault => rfl
  | candidate c => exact (finishIteration_loop _).trans (s.frameHandled_receive c).loop
  | noDataFraming | noDataTimeout => exact finishIteration_loop _

/-! ### RUN as the steps behind its reader call (R280, R281) -/

/-- A run that has begun, at the end of this iteration's reader call. -/
def callEnded : State :=
  (s.freeze.setFr (readCall s.env.rx readerStart).2.2).setRx (readCall s.env.rx readerStart).2.1

/-- Between the reader call and the end of the iteration no reader call is in progress (R161). -/
theorem callEnded_reader : s.callEnded.fr.phase = .idle ∧ s.callEnded.fr.cb = [] := by
  obtain ⟨hidle, hcb, -⟩ := readCall_spec s.env.rx readerStart readerOk_readerStart (by decide)
  exact ⟨hidle, hcb⟩

end State

theorem exec_run {s : State} (h : s.CanRun) :
    exec .run s
      = .next ((s.callEnded.afterCall (readCall s.env.rx readerStart).1).ret .nothing) := by
  obtain ⟨hup, hcfg, hidle⟩ := h
  rw [exec, execRun, State.inLoop, if_neg (by simp [hup]), if_neg (by simp [hcfg]),
    if_neg (not_not.2 hidle)]
  rfl

/-- Settles O50: the steps behind the reader call keep what the call left, and write the loop's
registers as its result says. -/
theorem runCompletesItsIteration : Obligations.RunCompletesItsIteration := by
  intro s hrun
  obtain ⟨hidle, hcb⟩ := s.callEnded_reader
  have hreader := s.callEnded.keepsReader_afterCall (readCall s.env.rx readerStart).1
  have hsetup := (s.callEnded.moves_afterCall (readCall s.env.rx readerStart).1).keepsSetup
  have hloop := s.callEnded.afterCall_loop (readCall s.env.rx readerStart).1
  refine ⟨_, exec_run hrun, (congrArg Reader.phase hreader.fr).trans hidle,
    (congrArg Reader.cb hreader.fr).trans hcb, ?_, hsetup.running rfl, hsetup.cfg, hreader.rx, ?_⟩
  · rw [State.ret_loop, hloop]
    split <;> rfl
  · have hup : s.callEnded.loop.halted = false := hrun.1
    rw [State.ret_loop, hloop]
    split <;> simp [*]

/-! ### A candidate is the frame instruction its bytes decode to (R285) -/

section
variable (kind id : Byte) {payload : List Byte} (crc : Word16) (term : Byte)

/-- The header names the telemetry command exactly when the PAYLOAD begins with it. -/
theorem header_command_iff (h : payload.length ≤ 255) :
    (header (frameBytes kind id payload crc term)).command = some CMD_TELEMETRY
        ∧ (header (frameBytes kind id payload crc term)).subcommand = some SUB_TELEMETRY
      ↔ beginsTelemetry payload = true := by
  rw [header_frameBytes kind id payload crc term h]
  rcases payload with _ | ⟨a, _ | ⟨b, rest⟩⟩ <;> simp [beginsTelemetry, CMD_BYTES_TELEMETRY]

theorem header_dataLen (h : payload.length ≤ 255) :
    (header (frameBytes kind id payload crc term)).dataLen = payload.length - 2 := by
  rw [header_frameBytes kind id payload crc term h]

end

theorem dispatchReply_unexpectedCommand {s : State} {c : List Byte} {hdr : Header}
    (h : ¬(hdr.command = some CMD_TELEMETRY ∧ hdr.subcommand = some SUB_TELEMETRY)) :
    s.dispatchReply c hdr
      = s.fail (.unexpectedCommand hdr.deviceId hdr.command hdr.subcommand) := by
  rw [State.dispatchReply, decodeReply_unexpectedCommand (not_and_or.1 h)]

theorem dispatchReply_lengthMismatch {s : State} {c : List Byte} {hdr : Header}
    (h : hdr.command = some CMD_TELEMETRY ∧ hdr.subcommand = some SUB_TELEMETRY)
    (hlen : hdr.dataLen ≠ TELEMETRY_DATA_LEN) :
    s.dispatchReply c hdr = s.fail (.decodeLengthMismatch hdr.deviceId hdr.dataLen) := by
  rw [State.dispatchReply, decodeReply_lengthMismatch h.1 h.2 hlen]

/-- A request row does with its frame what the loop does with the candidate. -/
theorem exec_requestRow (id : Byte) (payload : List Byte) (crc : Word16) (term : Byte) (s : State) :
    exec (requestRow id payload crc term) s
      = s.inLoop (valuesOk s.cfg s.devs) (fun s =>
          (s.receive (frameBytes ENQ id payload crc term)).ret .nothing) := by
  have hrow : exec (requestRow id payload crc term) s = exec (.frameReq id payload crc term) s := by
    unfold requestRow
    split
    · case _ hpayload => rw [hpayload, exec_frameReqTelemetry]
    · rfl
  have hkind := frameBytes_kind ENQ id payload crc term
  rw [hrow, exec_frameReq]
  congr 1
  funext u
  rw [onValid_eq_receive u _ _ (fun _ _ _ => rfl) (fun hne => absurd hkind hne)]

/-- A reply row whose action on the frame's header is the loop's does with its frame what the loop does
with the candidate. -/
theorem onValid_reply_eq_receive (id : Byte) (payload : List Byte) (crc : Word16) (term : Byte)
    (k : State → Header → State)
    (hk : ∀ s : State, k s (header (frameBytes ACK id payload crc term))
      = s.dispatchReply (frameBytes ACK id payload crc term)
          (header (frameBytes ACK id payload crc term))) :
    (fun s : State => (s.onValid (frameBytes ACK id payload crc term) k).ret .nothing)
      = fun s => (s.receive (frameBytes ACK id payload crc term)).ret .nothing := by
  have hkind := frameBytes_kind ACK id payload crc term
  funext s
  rw [onValid_eq_receive s _ k (fun he => absurd (hkind.symm.trans he) (by decide)) (fun _ => hk)]

theorem append_drop_of_beginsTelemetry {payload : List Byte} (h : beginsTelemetry payload = true) :
    CMD_BYTES_TELEMETRY ++ payload.drop 2 = payload := by
  rw [← show payload.take 2 = CMD_BYTES_TELEMETRY by simpa [beginsTelemetry] using h,
    List.take_append_drop]

/-- Each reply row is the case of TC.DECODE's result that its form fixes. -/
theorem exec_replyRow (id : Byte) {payload : List Byte} (crc : Word16) (term : Byte) (s : State)
    (hpayload : payload.length ≤ 255) :
    exec (replyRow id payload crc term) s
      = s.inLoop (valuesOk s.cfg s.devs) (fun s =>
          (s.receive (frameBytes ACK id payload crc term)).ret .nothing) := by
  have hcommand := header_command_iff ACK id crc term hpayload
  have hdata := header_dataLen ACK id crc term hpayload
  unfold replyRow
  split
  · case _ hbegins =>
    have hsplit := append_drop_of_beginsTelemetry hbegins
    split
    · rw [exec_frameReplyTelemetry, hsplit, onValid_reply_eq_receive]
      exact fun _ => rfl
    · case _ hlen =>
      have hlen' : (header (frameBytes ACK id payload crc term)).dataLen ≠ TELEMETRY_DATA_LEN := by
        rw [hdata]
        simp only [TELEMETRY_LENGTH, TELEMETRY_DATA_LEN] at hlen ⊢
        omega
      rw [exec_frameReplyBadlen, hsplit, onValid_reply_eq_receive]
      exact fun _ => (dispatchReply_lengthMismatch (hcommand.2 hbegins) hlen').symm
  · case _ hbegins =>
    rw [exec_frameReplyOther, onValid_reply_eq_receive]
    exact fun _ => (dispatchReply_unexpectedCommand (mt hcommand.1 hbegins)).symm

/-- The bytes of a candidate decode to a frame instruction, which does what the loop does with the
candidate. -/
theorem decode_candidate {c : List Byte} (h : candidateOk c) :
    ∃ i, decode .frame .hunt c = .instr i
      ∧ ∀ s : State, exec i s
        = s.inLoop (valuesOk s.cfg s.devs) (fun s => (s.receive c).ret .nothing) := by
  obtain ⟨kind, id, payload, crc, term, hkind, hpayload, rfl⟩ :=
    exists_frameBytes_of_candidateOk c h
  refine ⟨_, decodeFrame_frameBytes kind id payload crc term hkind hpayload, fun s => ?_⟩
  obtain rfl | rfl := hkind
  · exact exec_requestRow id payload crc term s
  · exact exec_replyRow id crc term s hpayload

/-! ### Steps 6 and 7 (R284) -/

theorem tick_ret (s : State) (r : Result) (t : Time) : (s.ret r).tick t = (s.tick t).ret r := by
  dsimp only [State.tick, State.ret]
  split <;> rfl

theorem flush_ret (s : State) (r : Result) (report : Bool) (t : Time) :
    (s.ret r).flush report t = (s.flush report t).ret r :=
  rfl

theorem finishIteration_ret (s : State) (r : Result) :
    (s.ret r).finishIteration = s.finishIteration.ret r := by
  simp only [State.finishIteration, State.ret_loop, tick_ret, State.ret_cfg, State.ret_clk, flush_ret]
  split <;> rfl

/-- An iteration of `s` that has come to its scheduler evaluation as `v`. -/
structure State.AtTick (s v : State) : Prop where
  cfg : v.cfg = s.cfg
  lastFlush : v.clk.lastFlush = s.clk.lastFlush
  sampled : v.loop.t = s.env.now
  idle : v.fr.phase = .idle
  ids : v.devs.map (·.id) = s.devs.map (·.id)

/-- Steps 6 and 7 are PS.TICK, and SA.FLUSH when it is due. -/
theorem State.AtTick.finishes {s v : State} (h : s.AtTick v) (hrun : s.CanRun)
    (hexec : exec .run s = .next (v.finishIteration.ret .nothing)) :
    ∃ u, exec (.psTick s.env.now) v = .next u
      ∧ exec .run s
        = if ∀ f ∈ s.clk.lastFlush, logInterval s.cfg ≤ s.env.now - f
          then exec (.saFlush s.env.now) u else .next u := by
  obtain ⟨hcfg, hflush, hsampled, hidle, hids⟩ := h
  obtain ⟨-, hvalues, -⟩ := hrun.canReceive
  have hids' : addressesNonzero v.devs = true :=
    (addressesNonzero_of_ids _ _ hids).trans (addressesNonzero_of_valuesOk _ _ hvalues)
  have hdue : flushDue (v.tick s.env.now).cfg (v.tick s.env.now).clk s.env.now = true
      ↔ ∀ f ∈ s.clk.lastFlush, logInterval s.cfg ≤ s.env.now - f := by
    obtain ⟨acc, tb, htick, -⟩ := tick_spec v s.env.now
    rw [flushDue_iff, htick, hflush, hcfg]
  refine ⟨_, exec_psTick _ hidle hids', ?_⟩
  simp only [hexec, State.finishIteration, State.tick_loop, hsampled]
  split
  · case _ h => rw [if_pos (hdue.1 h)]; rfl
  · case _ h => rw [if_neg (mt hdue.2 h)]

namespace State
variable (s : State)

theorem atTick_callEnded (status : Status) : s.AtTick (s.callEnded.sampleNow.fail status) :=
  ⟨rfl, rfl, rfl, s.callEnded_reader.1, rfl⟩

theorem atTick_stampTraffic (status : Status) :
    s.AtTick (s.callEnded.stampTraffic.fail status) :=
  ⟨rfl, rfl, rfl, s.callEnded_reader.1, rfl⟩

theorem atTick_receive (c : List Byte) : s.AtTick ((s.callEnded.receive c).ret .nothing) := by
  have hframe := s.callEnded.frameHandled_receive c
  have hreader := s.callEnded.keepsReader_receive c
  exact ⟨hframe.cfg, (congrArg Clock.lastFlush hframe.clk :), congrArg LoopRegs.t hframe.loop,
    (congrArg Reader.phase hreader.fr).trans s.callEnded_reader.1,
    (s.callEnded.moves_receive c).keepsSetup.ids⟩

end State

/-- Settles O49: the operations of a reader call by induction on the events; an iteration by the call's
result, a candidate as the frame instruction its bytes decode to. -/
theorem runTakesItsStepsInOrder : Obligations.RunTakesItsStepsInOrder := by
  refine ⟨fun s events hidle => ?_, fun s hrun => ?_⟩
  · exact ⟨(s.setFr readerStart).ret .nothing, if_pos hidle,
      readerOps_eq_readCall events ((s.setFr readerStart).ret .nothing) readerOk_readerStart
        Phase.noConfusion⟩
  · intro call now s1 rest
    have hexec : exec .run s = .next ((s.callEnded.afterCall call.1).ret .nothing) := exec_run hrun
    cases hcall : call.1 with
    | fault => rw [hcall] at hexec; exact hexec
    | noDataTimeout =>
      rw [hcall] at hexec
      exact (s.atTick_callEnded .noDataTimeout).finishes hrun hexec
    | noDataFraming =>
      rw [hcall] at hexec
      exact (s.atTick_stampTraffic .noDataFraming).finishes hrun hexec
    | candidate c =>
      rw [hcall] at hexec
      obtain ⟨hidle, -, -, hok⟩ :=
        readCall_spec s.env.rx readerStart readerOk_readerStart (by decide)
      obtain ⟨i, hdecode, hi⟩ := decode_candidate (hok c hcall)
      have hreceive : s1.CanReceive := ⟨hrun.1, hrun.canReceive.2.1, hidle⟩
      refine ⟨i, (s.callEnded.receive c).ret .nothing, hdecode,
        (hi s1).trans (inLoop_of_canReceive s1 _ hreceive), ?_⟩
      exact (s.atTick_receive c).finishes hrun (by rw [finishIteration_ret]; exact hexec)

/-! ### Who stops the block (R289) -/

/-- A block that is not halted before is not halted after. -/
def State.GoesOn (s t : State) : Prop := s.loop.halted = false → t.loop.halted = false

namespace State
variable {s t : State}

theorem goesOn_of_loop (h : t.loop = s.loop) : s.GoesOn t := fun hup => by rw [h, hup]

@[simp] theorem GoesOn.refl (s : State) : s.GoesOn s := id

/-- A frame in hand, when what takes its header handles it as frames are handled. -/
theorem goesOn_onValid (s : State) (c : List Byte) (k : State → Header → State)
    (hk : ∀ (s : State) (hdr : Header), s.FrameHandled (k s hdr)) : s.GoesOn (s.onValid c k) := by
  intro hup
  rw [(s.frameHandled_onValid c k hk).loop]
  exact hup

end State

section
variable (s : State)

theorem frame_goesOn (c : List Byte) (k : State → Header → State) (ok : Bool)
    (hk : ∀ (s : State) (hdr : Header), s.FrameHandled (k s hdr)) :
    EveryNext s.GoesOn (s.inLoop ok (fun s => (s.onValid c k).ret .nothing)) :=
  everyNext_inLoop _ s _ _ (.refl s) (s.goesOn_onValid c k hk)

theorem frByteOp_goesOn (row : FrRow) (f : Reader → Reader × Option ReadResult) :
    EveryNext s.GoesOn (frByteOp row f s) := by
  simp [frByteOp, State.GoesOn]

theorem execTcDecode_goesOn (c : List Byte) (hdr : Header) :
    EveryNext s.GoesOn (execTcDecode c hdr s) := by
  unfold execTcDecode
  cases decodeReply s.cfg c hdr <;> simp [State.GoesOn]

theorem execSaAccept_goesOn (i : Nat) (rec : TelemetryRecord) (t : Time) :
    EveryNext s.GoesOn (execSaAccept i rec t s) := by
  simp [execSaAccept, State.GoesOn, (s.frameHandled_accept i rec t).loop]

end

/-- The instructions that may stop the block (R289). -/
def MayStop (i : Instr) : Prop := i = .run ∨ i = .shutdown ∨ i = .fatal

theorem exec_goesOn (i : Instr) (s : State) (hi : ¬ MayStop i) : EveryNext s.GoesOn (exec i s) := by
  cases i with
  | run => exact absurd (.inl rfl) hi
  | shutdown => exact absurd (.inr (.inl rfl)) hi
  | fatal => exact absurd (.inr (.inr rfl)) hi
  | reset => simp [exec, execReset, State.GoesOn, State.resetWith]
  | frameReqTelemetry | frameReq =>
    exact frame_goesOn s _ _ _ fun s _ => s.frameHandled_emit _ (transmissions_status _)
  | frameReplyTelemetry => exact frame_goesOn s _ _ _ fun s hdr => s.frameHandled_dispatchReply _ hdr
  | frameReplyBadlen | frameReplyOther => exact frame_goesOn s _ _ _ fun s _ => s.frameHandled_fail _
  | frByteHunt | frByteKind | frByteHdr | frByteBody | frByteLast => exact frByteOp_goesOn s _ _
  | frStart | frTimeout | frFault => simp [exec, execFrStart, execFrTimeout, execFrFault, State.GoesOn]
  | crcReset | crcByte | crcBlock | crcValue | crcCheck =>
    simp [exec, execCrcReset, execCrcByte, execCrcBlock, execCrcValue, execCrcCheck, State.GoesOn]
  | fvValidate | fvHeader => simp [exec, execFvValidate, execFvHeader, State.GoesOn]
  | tcDecode c hdr => exact execTcDecode_goesOn s c hdr
  | tcUnpackAscii | tcUnpackU8 | tcUnpackU16 | tcUnpackU32 | tcUnpackRaw32 | tcUnpackPad =>
    simp [exec, execTcUnpackAscii, execTcUnpackU8, execTcUnpackU16, execTcUnpackU32,
      execTcUnpackRaw32, execTcUnpackPad, State.GoesOn]
  | tcScale | tcEncode => simp [exec, execTcScale, execTcEncode, State.GoesOn]
  | psTick | psNoteTraffic => simp [exec, execPsTick, execPsNoteTraffic, State.GoesOn]
  | saAccept k rec t => exact execSaAccept_goesOn s k rec t
  | saFlush | saFinalFlush => simp [exec, execSaFlush, execSaFinalFlush, State.GoesOn]

/-- A RUN that stops the block has lost the transport (R288). -/
theorem fault_of_exec_run {s t : State} (h : exec .run s = .next t) (hup : s.loop.halted = false)
    (hstop : t.loop.halted = true) : (readCall s.env.rx readerStart).1 = .fault := by
  obtain ⟨hhalted, -⟩ | ⟨-, hcfg, hidle, -⟩ := exec_run_next h
  · exact absurd hhalted (by simp [hup])
  · obtain ⟨t', ht', -, -, -, -, -, -, hiff⟩ := runCompletesItsIteration s ⟨hup, hcfg, hidle⟩
    obtain rfl := Host.Outcome.next.inj (ht'.symm.trans h)
    exact hiff.1 hstop

/-- An item that stops the block is an operation item, SHUTDOWN or a RUN that loses the transport: the
port takes no FATAL, and a frame is none of the three. -/
theorem stop_of_stepItem {s t : State} {item : HostItem} (h : stepItem s item = .next t)
    (hup : s.loop.halted = false) (hstop : t.loop.halted = true) :
    ∃ bs, item = .op bs ∧ (s.fetchOperation bs = .instr .shutdown
      ∨ s.fetchOperation bs = .instr .run ∧ (readCall s.env.rx readerStart).1 = .fault) := by
  have hno : ¬ s.GoesOn t := fun hon => by simp [hon hup] at hstop
  cases item with
  | op bs =>
    obtain ⟨i, hfetch, hport, hexec⟩ := stepItem_op_next s t bs h
    by_cases hi : MayStop i
    · refine ⟨bs, rfl, ?_⟩
      obtain rfl | rfl | rfl := hi
      · exact .inr ⟨hfetch, fault_of_exec_run hexec hup hstop⟩
      · exact .inl hfetch
      · cases hport
    · exact absurd (exec_goesOn i s hi t hexec) hno
  | frame bs =>
    obtain ⟨i, hfetch, -, hexec⟩ := stepItem_frame_next s t bs h
    have hbus := performer_of_fetchFrame s bs i hfetch
    refine absurd (exec_goesOn i s ?_ t hexec) hno
    rintro (rfl | rfl | rfl) <;> cases hbus
  | cfg w =>
    obtain ⟨-, ⟨ds, rfl, -⟩ | ⟨cfg, rfl, -⟩⟩ := hostWrite_next s t w h <;>
      exact absurd (State.goesOn_of_loop rfl) hno
  | time | rx | answer =>
    obtain rfl := Host.Outcome.next.inj h
    exact absurd (State.goesOn_of_loop rfl) hno

/-- Settles O56: nothing given stops nothing, and what is given is one item. -/
theorem onlyShutdownAndFatalStopTheBlock : Obligations.OnlyShutdownAndFatalStopTheBlock := by
  intro s t hup hstep hstop
  obtain ⟨-, rfl⟩ | ⟨item, rest, hinbox, hitem⟩ := step_next s t hstep
  · simp [hup] at hstop
  · obtain ⟨bs, rfl, hstops⟩ := stop_of_stepItem hitem hup hstop
    exact ⟨bs, rest, hinbox, hstops⟩

end Sys2Proof.Machine
end

section
/-! RESET given as an operation (70_reset_and_hazards.md R340) and the table of status codes
(60_exceptions.md R301). -/

namespace Sys2Proof.Machine

/-! ### RESET -/

theorem exec_reset_of_idle {s : State} (hidle : s.fr.phase = .idle) :
    exec .reset s = .next (.resetWith s.cfg.crc s.env) :=
  if_pos hidle

theorem exec_reset_of_not_idle {s : State} (hcall : s.fr.phase ≠ .idle) :
    exec .reset s = .refused .midIteration :=
  if_neg hcall

/-- Settles O3: between calls the next state is the one `State.resetWith` builds from the parameters and
the environment of the state before, so that each register is read off it. -/
theorem resetOperationRestoresResetValues : Obligations.ResetOperationRestoresResetValues := by
  intro s
  refine ⟨fun hidle => ⟨_, exec_reset_of_idle hidle, ?_⟩, exec_reset_of_not_idle⟩
  exact ⟨rfl, rfl, rfl, rfl, rfl, rfl, rfl, rfl, rfl, rfl, rfl, rfl⟩

/-! ### Status codes -/

/-- Settles O60: a code depends on the constructor alone, not on what the status carries, and the 19
codes are literals to compare. -/
theorem statusCodesAreTheTables : Obligations.StatusCodesAreTheTables :=
  ⟨fun _ _ _ _ _ _ _ => rfl, by decide⟩

end Sys2Proof.Machine
end
